-- ==== Sys2Proof/Word.lean ====
section
/-! DEFINITION. The words of the FW-3216: the memory word and its lane, the word address, the link byte and the µs count. -/

namespace Sys2Proof

/-- One byte of the maintenance link, and one lane of a memory word (00_scope.md, Terms). -/
abbrev Byte := BitVec 8

/-- A memory word, 16 bits (00_scope.md, Terms). -/
abbrev Word := BitVec 16

/-- A word address, 00000H to FFFFFH (00_scope.md, Terms). -/
abbrev Addr := BitVec 20

/-- A count of microseconds of the Time Base, 0 to FFFFFFFFH (R145). -/
abbrev Micros := BitVec 32

end Sys2Proof
end

