-- ==== Sys2Proof/Machine/Bytes.lean ====
section
/-! DEFINITION. Byte order on the maintenance link (R190: most significant byte first) and lists of bytes. -/

namespace Sys2Proof.Machine

/-- A two-byte field (R190). -/
def bytes2 (w : BitVec 16) : List Byte := [w.extractLsb' 8 8, w.extractLsb' 0 8]

/-- A word address in its three-byte field (R170). -/
def bytes3 (a : Addr) : List Byte := [(a.extractLsb' 16 4).setWidth 8, a.extractLsb' 8 8, a.extractLsb' 0 8]

/-- A four-byte field (R190). -/
def bytes4 (t : BitVec 32) : List Byte :=
  [t.extractLsb' 24 8, t.extractLsb' 16 8, t.extractLsb' 8 8, t.extractLsb' 0 8]

/-- A one-byte field that carries a number below 256. -/
def byteOf (n : Nat) : Byte := BitVec.ofNat 8 n

/-- A two-byte field that carries a number below 65536. -/
def bytes2Of (n : Nat) : List Byte := bytes2 (BitVec.ofNat 16 n)

/-- A field of 00H or 01H. -/
def byteOfBool (b : Bool) : Byte := if b then 1 else 0

/-- The value of a two-byte field (R190). -/
def word2 (hi lo : Byte) : BitVec 16 := hi ++ lo

/-- The value of a three-byte field (R190). -/
def value3 (b2 b1 b0 : Byte) : Nat := ((b2 ++ b1) ++ b0 : BitVec 24).toNat

/-- The word address a three-byte field carries, none above FFFFFH (R170). -/
def addr3 (b2 b1 b0 : Byte) : Option Addr :=
  if value3 b2 b1 b0 ≤ 0xFFFFF then some (BitVec.ofNat 20 (value3 b2 b1 b0)) else none

/-- Two-byte words in order, none when a byte is left over. -/
def words2 : List Byte → Option (List Word)
  | [] => some []
  | [_] => none
  | hi :: lo :: rest => (words2 rest).map (word2 hi lo :: ·)

/-- The sum of bytes modulo 256 (R149). -/
def byteSum : List Byte → Byte
  | [] => 0
  | b :: rest => b + byteSum rest

/-- The byte whose bits 0 to 7 are the flags of a list, bit 0 first (R128). -/
def packByte : List Bool → Byte
  | [] => 0
  | b :: rest => byteOfBool b + (packByte rest <<< 1)

/-- The forced-flag map: eight flags a byte, bit 0 first, unused bits 0 (R128); the fuel is the number of bytes. -/
def packFlags : Nat → List Bool → List Byte
  | 0, _ => []
  | n + 1, fs => packByte (fs.take 8) :: packFlags n (fs.drop 8)

end Sys2Proof.Machine
end

