-- ==== Sys2Proof/Syntax.lean ====
section
/-! DEFINITION. The commands: one constructor for each row of spec/opcode_table.json, with what the surroundings bring to it. -/

namespace Sys2Proof

/-- The levels of the controller's bus pins (00_scope.md, Pin description); true is high. -/
structure BusPins where
  /-- CSN, chip select, active low. -/
  csn : Bool
  /-- WEN, write enable, active low. -/
  wen : Bool
  /-- OEN, output enable, active low. -/
  oen : Bool
  /-- UBN, upper lane enable, active low. -/
  ubn : Bool
  /-- LBN, lower lane enable, active low. -/
  lbn : Bool
  /-- A19..A0, the word address. -/
  addr : Addr
  /-- D15..D0 as the controller drives them. -/
  data : Word
  deriving DecidableEq, Repr

/-- A character as the receiver samples it (R146): eight data bits, the parity bit, and the stop bit (true at mark). -/
structure RxChar where
  /-- The data bits. -/
  data : Byte
  /-- The parity bit as sampled. -/
  parity : Bool
  /-- The stop bit as sampled; true is mark. -/
  stop : Bool
  deriving DecidableEq, Repr

/-- The commands. A request's parameters stand in the frame under assembly, which State holds; the operand of every
final-byte row is the frame's final character, its check byte (log entry 8). -/
inductive Instr where
  /-- ACCESS_TAKE (R1): the controller's pins come to these levels and the port takes the access they form. -/
  | accessTake (pins : BusPins)
  /-- CYCLE_END (R2, R3): the controller's pins come to these levels and its bus cycle ends. -/
  | cycleEnd (pins : BusPins)
  /-- CONTROLLER_READ_DATA_RETURN (R6). -/
  | controllerReadDataReturn
  /-- RESERVATION_EXPIRY (R17): the 250 ns have elapsed. -/
  | reservationExpiry
  /-- CONTROLLER_WRITE_REACHES_MEMORY (R10, R12). -/
  | controllerWriteReachesMemory
  /-- CAPTURE_READ_RETURN (R11, R117). -/
  | captureReadReturn
  /-- FILL_READ_RETURN (R114). -/
  | fillReadReturn
  /-- READ_OPERATION_DATA_RETURN (R77, R80). -/
  | readOperationDataReturn
  /-- WRITE_OPERATION_REACHES_MEMORY (R78, R80). -/
  | writeOperationReachesMemory
  /-- MODIFY_READ_COMPLETE (R46, R79). -/
  | modifyReadComplete
  /-- MODIFY_WRITE_REACHES_MEMORY (R79, R80). -/
  | modifyWriteReachesMemory
  /-- SYSRSTN_FALL (R19, R20). -/
  | sysrstnFall
  /-- SYSRSTN_RISE (R147, R165): with the strap levels NA3..NA0 and BR1..BR0 and the level of LRX at the rise. -/
  | sysrstnRise (node : BitVec 4) (rate : BitVec 2) (lrxAtSpace : Bool)
  /-- CTLRUN_RISE (R136). -/
  | ctlrunRise
  /-- CTLRUN_FALL (R136). -/
  | ctlrunFall
  /-- SCAN_LIMIT_EXPIRY (R139). -/
  | scanLimitExpiry
  /-- LEASE_EXPIRY (R67). -/
  | leaseExpiry
  /-- FRAME_START (R150): a character taken in HUNT. -/
  | frameStart (c : RxChar)
  /-- OVERLONG_LENGTH (R151): the length character. -/
  | overlongLength (c : RxChar)
  /-- INTER_BYTE_TIMEOUT (R151). -/
  | interByteTimeout
  /-- BAD_FRAME (R151): the final character. -/
  | badFrame (c : RxChar)
  /-- IGNORED_FRAME (R153): the final character. -/
  | ignoredFrame (c : RxChar)
  /-- REQUEST_OTHER_NODE (R160): the final character. -/
  | requestOtherNode (c : RxChar)
  /-- BROADCAST_REQUEST (R157): the final character. -/
  | broadcastRequest (c : RxChar)
  /-- CONTINUE (R159): the final character. -/
  | continueFrame (c : RxChar)
  /-- ABORT (R160): the final character. -/
  | abortFrame (c : RxChar)
  /-- CONTINUATION_LIMIT (R161). -/
  | continuationLimit
  /-- BREAK (R148, R163). -/
  | breakLine
  /-- FRAME_TRANSMIT_START (R156). -/
  | frameTransmitStart
  /-- FRAME_SENT (R156). -/
  | frameSent
  /-- EMPTY_REQUEST (R155): the final character of the REQUEST. -/
  | emptyRequest (c : RxChar)
  /-- UNKNOWN_REQUEST (R167): the final character of the REQUEST. -/
  | unknownRequest (c : RxChar)
  /-- PROBE (R171): the final character of the REQUEST. -/
  | probe (c : RxChar)
  /-- IDENTIFY (R204): the final character of the REQUEST. -/
  | identify (c : RxChar)
  /-- STATUS (R203): the final character of the REQUEST. -/
  | status (c : RxChar)
  /-- LEVEL (R62 to R64): the final character of the REQUEST. -/
  | level (c : RxChar)
  /-- SESSION_CLEAR (R72): the final character of the REQUEST. -/
  | sessionClear (c : RxChar)
  /-- PEEK (R84): the final character of the REQUEST. -/
  | peek (c : RxChar)
  /-- POKE (R82): the final character of the REQUEST. -/
  | poke (c : RxChar)
  /-- SYNC (R85): the final character of the REQUEST. -/
  | sync (c : RxChar)
  /-- FORCE (R50 to R52): the final character of the REQUEST. -/
  | force (c : RxChar)
  /-- RELEASE_ALL (R56): the final character of the REQUEST. -/
  | releaseAll (c : RxChar)
  /-- FORCE_LIST (R57): the final character of the REQUEST. -/
  | forceList (c : RxChar)
  /-- WATCH_DEFINE (R98): the final character of the REQUEST. -/
  | watchDefine (c : RxChar)
  /-- WATCH_APPEND (R99): the final character of the REQUEST. -/
  | watchAppend (c : RxChar)
  /-- WATCH_LIST (R105): the final character of the REQUEST. -/
  | watchList (c : RxChar)
  /-- WATCH_ARM (R102): the final character of the REQUEST. -/
  | watchArm (c : RxChar)
  /-- WATCH_STOP (R103): the final character of the REQUEST. -/
  | watchStop (c : RxChar)
  /-- SNAP_READ (R122): the final character of the REQUEST. -/
  | snapRead (c : RxChar)
  /-- SNAP_ACK (R125): the final character of the REQUEST. -/
  | snapAck (c : RxChar)
  /-- SCAN_CONFIG (R142): the final character of the REQUEST. -/
  | scanConfig (c : RxChar)
  /-- SCAN_STATS (R143): the final character of the REQUEST. -/
  | scanStats (c : RxChar)
  /-- REGION_SET (R35, R36): the final character of the REQUEST. -/
  | regionSet (c : RxChar)
  /-- REGION_LIST (R37): the final character of the REQUEST. -/
  | regionList (c : RxChar)
  /-- LOG_READ (R32): the final character of the REQUEST. -/
  | logRead (c : RxChar)
  /-- ALERT_CLEAR (R201): the final character of the REQUEST. -/
  | alertClear (c : RxChar)
  /-- ALERT_ENABLE (R202): the final character of the REQUEST. -/
  | alertEnable (c : RxChar)
  /-- TIME_BASE_TICK (R145): one µs. -/
  | timeBaseTick
  /-- LRX_RETURNS_TO_MARK (R148, R165). -/
  | lrxReturnsToMark
  /-- FRAME_CHARACTER_TAKEN (R150): a node, kind, length or payload character. -/
  | frameCharacterTaken (c : RxChar)
  /-- TURN_VIOLATION_AT_FINAL_BYTE (R152): the final character. -/
  | turnViolationAtFinalByte (c : RxChar)
  deriving DecidableEq, Repr

end Sys2Proof
end

