-- ==== Sys2Proof/Decode.lean ====
section
/-! DEFINITION. What the pins and the line spell: whether the bus pins form an access, whether a character is flagged, and
the command a table word spells. The table of spec/opcode_table.json gives no row any bits ("fields" is empty in every row
and no row has "fixed"), so no word spells a command. -/

namespace Sys2Proof

/-- The conditions under which an idle Controller Port takes an access (R1). -/
def BusPins.takes (p : BusPins) : Bool :=
  !p.csn && (!p.ubn || !p.lbn) && (!p.wen || !p.oen)

/-- Even parity: the number of ones among the data bits (R146). -/
def evenParity (b : Byte) : Bool :=
  (List.range 8).foldl (fun p i => p ^^ b.getLsbD i) false

/-- A parity or framing error of a character (R146). -/
def RxChar.flagged (c : RxChar) : Bool :=
  (c.parity != evenParity c.data) || !c.stop

/-- The character the host sends for a byte: right parity, stop bit at mark (R146). -/
def RxChar.ofByte (b : Byte) : RxChar := ⟨b, evenParity b, true⟩

/-- The command that a word of nbits bits spells by the table's bits: none, since no row of the table gives bits. -/
def decodeTableWord (_nbits _w : Nat) : Option Instr := none

end Sys2Proof
end

