-- ==== Sys2Proof/Config.lean ====
section
/-! DEFINITION. What this part fixes: its capacities and limits, and the values the model chose where the spec gives none. -/

namespace Sys2Proof.Config

/-- Force entries the table holds at most (R39). -/
abbrev forceCapacity : Nat := 32

/-- Operations the queue holds at most (R75). -/
abbrev queueCapacity : Nat := 32

/-- Watch items the list holds at most (R94). -/
abbrev itemCapacity : Nat := 64

/-- Elements the watch list expands to at most (R94). -/
abbrev elementCapacity : Nat := 256

/-- Guard Log records held at most (R31). -/
abbrev logCapacity : Nat := 16

/-- Where the dropped, missed and link fault counts hold (R31, R111, R151). -/
abbrev countLimit : Nat := 255

/-- The highest word address, as a number (R94, R170). -/
abbrev lastAddr : Nat := 0xFFFFF

/-- The consecutive count at which an engine must be granted (R16). -/
abbrev grantRun : Nat := 4

/-- The length of the controller reservation in ns (R17). -/
abbrev reservationNs : Nat := 250

/-- The longest payload of one frame in bytes (R151, R158). -/
abbrev payloadLimit : Nat := 64

/-- The continuation limit in µs (R161). -/
abbrev continuationLimit : Nat := 1000000

/-- One unit of the lease duration in µs (R63). -/
abbrev leaseUnit : Nat := 100000

/-- The longest lease duration in units (R62). -/
abbrev leaseMax : Nat := 600

/-- One unit of the scan limit in µs (R139). -/
abbrev scanUnit : Nat := 100

/-- The family code of IDENTIFY (R204). -/
def familyCode : BitVec 16 := 0x0A52

/-- The revision of IDENTIFY (R204). -/
def revision : Byte := 0x01

/-- The start byte of a frame (R189). -/
def startByte : Byte := 0xC3

/-- The broadcast node address (R147, R153). -/
abbrev broadcastNode : Nat := 15

/-- The character time in ns at a strap setting of BR1..BR0: eleven bit times (R146 and the strap table of 00_scope.md,
which rounds). Nothing in the model counts it: see log entry 18. -/
def charTimeNs (rate : BitVec 2) : Nat :=
  11 * 1000000000 / (if rate = 0 then 9600 else if rate = 1 then 38400 else if rate = 2 then 115200 else 460800)

/-- The inter-byte timeout in ns: 4 character times (R151). Nothing in the model counts it: see log entry 18. -/
def interByteTimeoutNs (rate : BitVec 2) : Nat := 4 * charTimeNs rate

/-- What a byte of RAM that nothing has written reads as. DESIGN CHOICE, unsafe: log entry 1. -/
def unwrittenByte : Byte := 0x00

/-- NA3..NA0 as sampled, in State.reset. DESIGN CHOICE, unsafe: log entry 3. -/
def resetNode : BitVec 4 := 0

/-- BR1..BR0 as sampled, in State.reset. DESIGN CHOICE, unsafe: log entry 3. -/
def resetRate : BitVec 2 := 0

end Sys2Proof.Config
end

