-- ==== Sys2Proof/Machine/State.lean ====
section
/-! DEFINITION. The state of the FW-3216, block by block as the spec gives it, and its values after device reset. -/

namespace Sys2Proof.Machine

/-! ## The access path (file 01) -/

/-- The lanes of an access: which bytes of the word it enables (00_scope.md, Terms). -/
structure Lanes where
  /-- Bits 15..8. -/
  upper : Bool
  /-- Bits 7..0. -/
  lower : Bool
  deriving DecidableEq, Repr

/-- The six classes of a region (R21). -/
inductive RegionClass where
  | input | output | work | hold | program | absent
  deriving DecidableEq, Repr

/-- What a lookup answers (R23): no enabled region, or the governing region's index, class and guard. -/
inductive Classification where
  | unmapped
  | region (index : Nat) (cls : RegionClass) (guard : Bool)
  deriving DecidableEq, Repr

/-- The access the Controller Port holds (R1, R4). Bits of a disabled lane are not held and stand as 0 (log entry 15). -/
structure Access where
  /-- The held word address. -/
  addr : Addr
  /-- True for a write. -/
  write : Bool
  /-- The lane enables at the take. -/
  lanes : Lanes
  /-- The write data of the enabled lanes. -/
  data : Word
  /-- The classification made at the take. -/
  cls : Classification
  /-- The controller has ended the cycle while the port was ACTIVE (R3). -/
  ended : Bool
  deriving DecidableEq, Repr

/-- The state of the Controller Port (R1, R2): in DONE a read keeps the word to be returned. -/
inductive PortState where
  | idle
  | active (acc : Access)
  | done (acc : Access) (word : Option Word)
  deriving DecidableEq, Repr

/-- The state of the Memory Port with what it drives (R5). -/
inductive MemPort where
  | idle
  | reading (addr : Addr)
  | writing (addr : Addr) (data : Word) (lanes : Lanes)
  deriving DecidableEq, Repr

/-- The three claimants of the Memory Port (R13). -/
inductive Claimant where
  | c | f | q
  deriving DecidableEq, Repr

/-- The two engine claimants (R13). -/
inductive Engine where
  | f | q
  deriving DecidableEq, Repr

/-- Where a grant stands among the accesses R18 gives it: its read, the capture read of a write whose data and lanes were
settled at the grant (R10, R11), or its write. -/
inductive GrantStage where
  | read
  | captureRead (data : Word) (lanes : Lanes)
  | write
  deriving DecidableEq, Repr

/-- A grant of the Memory Port: its holder and where it stands (R13, R18). -/
structure Grant where
  /-- The claimant holding the grant. -/
  holder : Claimant
  /-- Where the grant stands. -/
  stage : GrantStage
  deriving DecidableEq, Repr

/-- The state of the Port Arbiter (R13). -/
@[ext] structure Arbiter where
  /-- The grant holder, none when no grant is held. -/
  grant : Option Grant
  /-- C is waiting. -/
  waitC : Bool
  /-- F is waiting. -/
  waitF : Bool
  /-- Q is waiting. -/
  waitQ : Bool
  /-- The consecutive count, 0 to 4. -/
  count : Nat
  /-- The engine granted most recently. -/
  lastEngine : Engine
  /-- The controller reservation: the time it ends, in ns of the Time Base (log entry 10). -/
  reservation : Option Nat
  deriving DecidableEq, Repr

/-! ## Regions and the Guard Log (file 02) -/

/-- A region record; its index is its place in the table (R21). -/
structure Region where
  /-- Whether the region takes part in lookup. -/
  enabled : Bool
  /-- First word address. -/
  base : Addr
  /-- Last word address. -/
  limit : Addr
  /-- The class of the range. -/
  cls : RegionClass
  /-- Whether controller writes are blocked. -/
  guard : Bool
  deriving DecidableEq, Repr

/-- A Guard Log record (R30). -/
structure LogRecord where
  /-- The address of the blocked write. -/
  addr : Addr
  /-- The held data, each disabled lane 00H. -/
  data : Word
  /-- The lanes enabled at the take. -/
  lanes : Lanes
  /-- The marker sequence at the block instant. -/
  seq : BitVec 16
  /-- The Time Base count at the block instant. -/
  time : Micros
  deriving DecidableEq, Repr

/-- The Guard Log (R31): its records, oldest first, and the dropped count. -/
structure GuardLog where
  /-- The records, oldest first, at most 16. -/
  records : List LogRecord
  /-- The dropped count, 0 to 255. -/
  dropped : Nat
  deriving DecidableEq, Repr

/-! ## The Force Table (file 03) -/

/-- A force entry (R38). -/
structure ForceEntry where
  /-- The forced word. -/
  addr : Addr
  /-- The bits held at 1. -/
  set : Word
  /-- The bits held at 0. -/
  clr : Word
  deriving DecidableEq, Repr

/-! ## The Lease Timer (file 04) -/

/-- The access level (R59). -/
inductive Level where
  | view | tune | service
  deriving DecidableEq, Repr

/-- The lease condition (R59). -/
inductive LeaseCond where
  | stopped | running | paused
  deriving DecidableEq, Repr

/-- The state of the Lease Timer (R59). -/
@[ext] structure Lease where
  /-- The access level. -/
  level : Level
  /-- The granted duration in units of 100 ms. -/
  granted : Option Nat
  /-- The remaining time in µs. -/
  remaining : Nat
  /-- The lease condition. -/
  cond : LeaseCond
  deriving DecidableEq, Repr

/-! ## The Operation Queue (file 05) -/

/-- What an operation does at memory, with the fields its kind has (R74). -/
inductive OpKind where
  | read (position : Nat)
  | write (data : Word)
  | modify (set clr : Word)
  deriving DecidableEq, Repr

/-- The request that made an operation (R74). -/
inductive Origin where
  | peek | poke | force
  deriving DecidableEq, Repr

/-- An operation (R74). -/
structure Operation where
  /-- The kind and its fields. -/
  kind : OpKind
  /-- The word address. -/
  addr : Addr
  /-- The request that made it. -/
  origin : Origin
  /-- ACTIVE rather than WAITING. -/
  active : Bool
  /-- The lookup made when the operation became the head. -/
  cls : Option Classification
  /-- The PEEK that made this READ was abandoned while the READ was ACTIVE: its word is dropped (R86, log entry 13). -/
  dropped : Bool
  deriving DecidableEq, Repr

/-- The completion record (R83): a SYNC, or a PEEK with the results of its positions. -/
inductive Completion where
  | sync
  | peek (results : List (Option Word))
  deriving DecidableEq, Repr

/-! ## The Watch List (file 06) -/

/-- A watch item with the fields its kind has (R91). -/
inductive WatchItem where
  | bit (base : Addr) (bit : BitVec 4)
  | word (base : Addr)
  | pair (base : Addr)
  | block (base : Addr) (count stride : Nat)
  | grid (base : Addr) (count stride groups groupStride : Nat)
  deriving DecidableEq, Repr

/-- An element: its word address and the index of the item that produced it (R92); its number is its place. -/
structure Element where
  /-- The word address. -/
  addr : Addr
  /-- The index of its item. -/
  item : Nat
  deriving DecidableEq, Repr

/-- The arming mode (R101). -/
inductive WatchMode where
  | off | oneShot | continuous
  deriving DecidableEq, Repr

/-- The state of the Watch List (R92). -/
@[ext] structure Watch where
  /-- The items in registration order. -/
  items : List WatchItem
  /-- The elements in item order. -/
  elements : List Element
  /-- The generation number. -/
  generation : BitVec 16
  /-- The arming mode. -/
  mode : WatchMode
  deriving DecidableEq, Repr

/-! ## Coherent snapshots (file 07) -/

/-- The two banks (R109). -/
inductive BankId where
  | a | b
  deriving DecidableEq, Repr

/-- The state of an element in a fill (R108). -/
inductive ElemState where
  | pending | captured
  deriving DecidableEq, Repr

/-- The fill context (R108). -/
structure Fill where
  /-- The target bank. -/
  bank : BankId
  /-- The frozen force view. -/
  frozen : List ForceEntry
  /-- The element states, by element number. -/
  states : List ElemState
  deriving DecidableEq, Repr

/-- The state of a bank (R120). -/
inductive BankState where
  | empty | filling | ready | sending | sent
  deriving DecidableEq, Repr

/-- The kind of a watch item (R91). -/
inductive ItemKind where
  | bit | word | pair | block | grid
  deriving DecidableEq, Repr

/-- One item of a bank's item layout (R104). -/
structure LayoutItem where
  /-- The kind. -/
  kind : ItemKind
  /-- The element count. -/
  count : Nat
  /-- The bit number, for a BIT item. -/
  bit : Option (BitVec 4)
  deriving DecidableEq, Repr

/-- The header of a snapshot (R113). -/
structure Header where
  /-- The target bank. -/
  bank : BankId
  /-- The Watch List generation. -/
  generation : BitVec 16
  /-- The marker sequence. -/
  seq : BitVec 16
  /-- The marker time. -/
  time : Micros
  /-- The last scan period, none where the marker recorded none. -/
  period : Option Micros
  /-- The missed count. -/
  missed : Nat
  /-- The element count. -/
  elementCount : Nat
  /-- The item count. -/
  itemCount : Nat
  /-- Some captured word was forced in the frozen view (R119). -/
  forcedPresent : Bool
  deriving DecidableEq, Repr

/-- A snapshot bank (R109). -/
@[ext] structure Bank where
  /-- The state. -/
  state : BankState
  /-- The header. -/
  header : Header
  /-- The item layout. -/
  layout : List LayoutItem
  /-- The 256 element words. -/
  words : List Word
  /-- The 256 forced flags. -/
  flags : List Bool
  /-- Second in fill order. -/
  second : Bool
  deriving DecidableEq, Repr

/-! ## The Scan Supervisor (file 08) -/

/-- The stall action (R133). -/
inductive StallAction where
  | none | release
  deriving DecidableEq, Repr

/-- The supervisor state (R133). -/
inductive SupState where
  | inactive | waitingFirst | timing | stalled
  deriving DecidableEq, Repr

/-- The state of the Scan Supervisor (R133). -/
@[ext] structure Supervisor where
  /-- The marker address. -/
  marker : Option Addr
  /-- The scan limit in units of 100 µs; 0 is supervision off. -/
  limit : BitVec 16
  /-- The stall action. -/
  action : StallAction
  /-- The supervisor state. -/
  state : SupState
  /-- The marker sequence. -/
  seq : BitVec 16
  /-- The last marker time. -/
  lastMarker : Option Micros
  /-- The elapsed time. -/
  elapsed : Option Micros
  /-- The last period. -/
  lastPeriod : Option Micros
  /-- The minimum period. -/
  minPeriod : Option Micros
  /-- The maximum period. -/
  maxPeriod : Option Micros
  deriving DecidableEq, Repr

/-! ## The Link Controller (file 09) -/

/-- A frame under assembly (R150, R151, R152). -/
structure RxFrame where
  /-- The characters taken after the start byte, in order: node, kind, length, payload. -/
  chars : List Byte
  /-- One of them carried a parity or framing error. -/
  flagged : Bool
  /-- The start byte was taken while the exchange was EXECUTING or SENDING. -/
  violation : Bool
  deriving DecidableEq, Repr

/-- The receiver's state (R150). -/
inductive RxState where
  | hunt
  | assembling (frame : RxFrame)
  deriving DecidableEq, Repr

/-- The receiver (R148, R150, R165). -/
structure Receiver where
  /-- HUNT, or ASSEMBLING with the frame under assembly. -/
  state : RxState
  /-- No character is taken and no break recognised until the line returns to mark. -/
  awaitMark : Bool
  deriving DecidableEq, Repr

/-- The exchange state (R154). -/
inductive ExchState where
  | idle | receiving | executing | sending | awaitContinue
  deriving DecidableEq, Repr

/-- What a SENDING exchange sends: the segment at a position, or the FORMAT reply of R159 (log entry 14). -/
inductive SendItem where
  | segment (position : Nat)
  | formatReply
  deriving DecidableEq, Repr

/-- The exchange (R154) with the transmitter's lines (R146). -/
@[ext] structure Exchange where
  /-- The exchange state. -/
  state : ExchState
  /-- The request code. -/
  code : Option Byte
  /-- The whole reply payload. -/
  reply : Option (List Byte)
  /-- The segment count. -/
  segCount : Option Nat
  /-- The segment number of the last frame sent. -/
  lastSent : Option Nat
  /-- The position of the next frame to send. -/
  nextIndex : Option Nat
  /-- The continuation time in µs. -/
  contTime : Option Nat
  /-- The bank under transfer. -/
  bank : Option BankId
  /-- The link fault count, 0 to 255. -/
  faults : Nat
  /-- What is to be sent, or is being sent. -/
  send : Option SendItem
  /-- LDE: the part drives the line. -/
  lde : Bool
  /-- The bytes of the frame on LTX while LDE is high. -/
  ltx : Option (List Byte)
  deriving DecidableEq, Repr

/-! ## The Alert Unit (file 11) -/

/-- One bit for each alert source (R198). -/
structure AlertSet where
  /-- SNAP_READY. -/
  snapReady : Bool
  /-- GUARD. -/
  guard : Bool
  /-- LEASE_LOST. -/
  leaseLost : Bool
  /-- STALL. -/
  stall : Bool
  /-- LINK_FAULT. -/
  linkFault : Bool
  deriving DecidableEq, Repr

/-! ## The whole machine -/

/-- The static RAM as bytes, in canonical form: keys strictly rising, no entry equal to what an unlisted byte reads as.
The lower lane of word a has key 2 * a, the upper lane key 2 * a + 1 (log entry 2). -/
abbrev Memory := List Host.Cell

/-- The state of the machine. -/
@[ext]
structure State where
  /-- The commands waiting, first in, first out (the model's own). -/
  pending : List Instr
  /-- SYSRSTN is high. -/
  sysrstn : Bool
  /-- The levels on the controller's bus pins. -/
  bus : BusPins
  /-- CTLRUN is high. -/
  ctlrun : Bool
  /-- NA3..NA0 as sampled when SYSRSTN last rose (R147). -/
  strapNode : BitVec 4
  /-- BR1..BR0 as sampled when SYSRSTN last rose (R147). -/
  strapRate : BitVec 2
  /-- The static RAM at the memory port (R5). -/
  mem : Memory
  /-- The Controller Port (R1). -/
  port : PortState
  /-- The Memory Port (R5). -/
  mport : MemPort
  /-- The Port Arbiter (R13). -/
  arb : Arbiter
  /-- The Region Table, eight records (R21). -/
  regions : List Region
  /-- The Guard Log (R31). -/
  guardLog : GuardLog
  /-- The Force Table, ascending by address (R39). -/
  forces : List ForceEntry
  /-- The Lease Timer (R59). -/
  lease : Lease
  /-- The Operation Queue, head first (R75). -/
  ops : List Operation
  /-- The completion record (R83). -/
  completion : Option Completion
  /-- The Watch List (R92). -/
  watch : Watch
  /-- The fill context (R108). -/
  fill : Option Fill
  /-- The missed count, 0 to 255 (R108). -/
  missed : Nat
  /-- Bank A (R109). -/
  bankA : Bank
  /-- Bank B (R109). -/
  bankB : Bank
  /-- The Scan Supervisor (R133). -/
  sup : Supervisor
  /-- The Time Base count (R145). -/
  time : Micros
  /-- The receiver (R150). -/
  rx : Receiver
  /-- The exchange (R154). -/
  exch : Exchange
  /-- The alert latches (R198). -/
  latched : AlertSet
  /-- The alert enables (R198). -/
  enabled : AlertSet
  deriving DecidableEq, Repr

/-- The reasons the machine stops with a fault: none. The spec gives the part no state in which it stops, and every command
has a next state. -/
inductive Fault where
  deriving DecidableEq, Repr

/-- The reasons a command is refused. -/
inductive Refusal where
  /-- A command without a meaning in this model, by its mnemonic. Raised by no arm of exec; safe. -/
  | notModelled (mnemonic : String)
  deriving DecidableEq, Repr

/-! ## Device reset -/

/-- The bus pins in State.reset: deselected. DESIGN CHOICE, unsafe: log entry 4. -/
def idleBus : BusPins := ⟨true, true, true, true, true, 0, 0⟩

/-- The Port Arbiter after device reset (R13). -/
def Arbiter.reset : Arbiter := ⟨none, false, false, false, 0, .f, none⟩

/-- The Region Table after device reset (R22). -/
def resetRegions : List Region :=
  ⟨true, 0, 0xFFFFF, .work, false⟩ :: List.replicate 7 ⟨false, 0, 0, .input, false⟩

/-- The Lease Timer after device reset, and at VIEW (R59). -/
def Lease.view : Lease := ⟨.view, none, 0, .stopped⟩

/-- The Watch List after device reset (R92). -/
def Watch.reset : Watch := ⟨[], [], 0, .off⟩

/-- The header of a bank that holds no snapshot; no request reports it (R109). DESIGN CHOICE: log entry 16. -/
def Header.blank : Header := ⟨.a, 0, 0, 0, none, 0, 0, 0, false⟩

/-- An EMPTY bank: it holds no snapshot (R109). DESIGN CHOICE for its contents: log entry 16. -/
def Bank.empty : Bank := ⟨.empty, Header.blank, [], List.replicate 256 0, List.replicate 256 false, false⟩

/-- The Scan Supervisor after device reset (R133, R144). -/
def Supervisor.reset : Supervisor := ⟨none, 0, .none, .inactive, 0, none, none, none, none, none⟩

/-- The receiver after device reset with the line at mark (R150, R165). -/
def Receiver.reset : Receiver := ⟨.hunt, false⟩

/-- The exchange after device reset (R154, R165). -/
def Exchange.reset : Exchange := ⟨.idle, none, none, none, none, none, none, none, 0, none, false, none⟩

/-- No alert source (R198). -/
def AlertSet.clear : AlertSet := ⟨false, false, false, false, false⟩

/-- Every alert source (R198). -/
def AlertSet.all : AlertSet := ⟨true, true, true, true, true⟩

/-- The machine right after device reset: SYSRSTN has risen with the pins and straps of log entries 3, 4 and 5. -/
def State.reset : State where
  pending := []
  sysrstn := true
  bus := idleBus
  ctlrun := false
  strapNode := Config.resetNode
  strapRate := Config.resetRate
  mem := []
  port := .idle
  mport := .idle
  arb := Arbiter.reset
  regions := resetRegions
  guardLog := ⟨[], 0⟩
  forces := []
  lease := Lease.view
  ops := []
  completion := none
  watch := Watch.reset
  fill := none
  missed := 0
  bankA := Bank.empty
  bankB := Bank.empty
  sup := Supervisor.reset
  time := 0
  rx := Receiver.reset
  exch := Exchange.reset
  latched := AlertSet.clear
  enabled := AlertSet.all

end Sys2Proof.Machine
end

