-- ==== Sys2Proof/Machine/Flags.lean ====
section
/-! DEFINITION. The alert latches and enables, their mask form and ALERTN (R198 to R202). -/

namespace Sys2Proof.Machine

/-- The five alert sources (R198). -/
inductive AlertSource where
  | snapReady | guard | leaseLost | stall | linkFault
  deriving DecidableEq, Repr

/-- Latches a source (R199). -/
def AlertSet.latch (a : AlertSet) : AlertSource → AlertSet
  | .snapReady => { a with snapReady := true }
  | .guard => { a with guard := true }
  | .leaseLost => { a with leaseLost := true }
  | .stall => { a with stall := true }
  | .linkFault => { a with linkFault := true }

/-- Whether a source is in the set. -/
def AlertSet.has (a : AlertSet) : AlertSource → Bool
  | .snapReady => a.snapReady
  | .guard => a.guard
  | .leaseLost => a.leaseLost
  | .stall => a.stall
  | .linkFault => a.linkFault

/-- The alert mask of a set (R191): bit 0 SNAP_READY, 1 GUARD, 2 LEASE_LOST, 3 STALL, 4 LINK_FAULT. -/
def AlertSet.toMask (a : AlertSet) : Byte :=
  (if a.snapReady then 0x01 else 0) ||| (if a.guard then 0x02 else 0) ||| (if a.leaseLost then 0x04 else 0)
    ||| (if a.stall then 0x08 else 0) ||| (if a.linkFault then 0x10 else 0)

/-- The set an alert mask names; bits 7 to 5 are disregarded (R170, R191). -/
def AlertSet.ofMask (m : Byte) : AlertSet :=
  ⟨m.getLsbD 0, m.getLsbD 1, m.getLsbD 2, m.getLsbD 3, m.getLsbD 4⟩

/-- The sources of the first set that are not in the second (R201). -/
def AlertSet.without (a b : AlertSet) : AlertSet :=
  ⟨a.snapReady && !b.snapReady, a.guard && !b.guard, a.leaseLost && !b.leaseLost, a.stall && !b.stall,
    a.linkFault && !b.linkFault⟩

/-- Some source is in both sets (R200). -/
def AlertSet.meets (a b : AlertSet) : Bool :=
  (a.snapReady && b.snapReady) || (a.guard && b.guard) || (a.leaseLost && b.leaseLost) || (a.stall && b.stall)
    || (a.linkFault && b.linkFault)

/-- A cause of a source is taken (R199). -/
def State.latch (s : State) (src : AlertSource) : State := { s with latched := s.latched.latch src }

/-- The part drives ALERTN low: some source is latched and enabled, and SYSRSTN is high (R200). -/
def State.alertnLow (s : State) : Bool := s.sysrstn && s.latched.meets s.enabled

end Sys2Proof.Machine
end

