-- ==== Sys2Proof/Machine/Memory.lean ====
section
/-! DEFINITION. The static RAM at the memory port (R5): reads of full words, writes by lane, in the canonical form of
Memory. -/

namespace Sys2Proof.Machine

/-- The byte at a key; a key not listed reads as Config.unwrittenByte (log entry 1). -/
def Memory.readByte : Memory → Nat → Byte
  | [], _ => Config.unwrittenByte
  | (k, b) :: rest, n => if k = n then b else Memory.readByte rest n

/-- Puts a byte at the front of a memory whose keys are all higher, keeping the canonical form. -/
def Memory.consByte (n : Nat) (b : Byte) (m : Memory) : Memory :=
  if b = Config.unwrittenByte then m else (n, b) :: m

/-- Writes the byte at a key, keeping the canonical form. -/
def Memory.writeByte : Memory → Nat → Byte → Memory
  | [], n, b => Memory.consByte n b []
  | (k, c) :: rest, n, b =>
    if n < k then Memory.consByte n b ((k, c) :: rest)
    else if n = k then Memory.consByte n b rest
    else (k, c) :: Memory.writeByte rest n b

/-- The key of the lower lane of a word; the upper lane's is one above (log entry 2). -/
def laneKey (a : Addr) : Nat := 2 * a.toNat

/-- The word at an address: every read at the Memory Port is a full-word read (R5). -/
def Memory.readWord (m : Memory) (a : Addr) : Word :=
  m.readByte (laneKey a + 1) ++ m.readByte (laneKey a)

/-- Writes the enabled lanes of a word; a disabled lane keeps its content (R5). -/
def Memory.writeWord (m : Memory) (a : Addr) (w : Word) (lanes : Lanes) : Memory :=
  let low := if lanes.lower then m.writeByte (laneKey a) (w.extractLsb' 0 8) else m
  if lanes.upper then low.writeByte (laneKey a + 1) (w.extractLsb' 8 8) else low

/-- The canonical form: keys strictly rising and inside the 2^20 words, no entry equal to what an unlisted byte reads as. -/
abbrev Memory.wf (m : Memory) : Prop :=
  m.Pairwise (fun x y => x.1 < y.1) ∧ ∀ c ∈ m, c.2 ≠ Config.unwrittenByte ∧ c.1 < 2 ^ 21

/-- Both lanes (R78, R79). -/
def Lanes.both : Lanes := ⟨true, true⟩

/-- The bits of the enabled lanes. -/
def Lanes.mask (l : Lanes) : Word :=
  (if l.upper then 0xFF00 else 0) ||| (if l.lower then 0x00FF else 0)

end Sys2Proof.Machine
end

