-- ==== Sys2Proof/Machine/Regions.lean ====
section
/-! DEFINITION. Lookup in the Region Table (R23) and what a classification means for an access (R25, R41). -/

namespace Sys2Proof.Machine

/-- The region is enabled and contains the address (R23). -/
def Region.contains (r : Region) (a : Addr) : Bool :=
  r.enabled && decide (r.base ≤ a) && decide (a ≤ r.limit)

/-- The lookup over records numbered from an index upward (R23). -/
def lookupFrom : Nat → List Region → Addr → Classification
  | _, [], _ => .unmapped
  | i, r :: rest, a => if r.contains a then .region i r.cls r.guard else lookupFrom (i + 1) rest a

/-- The classification of a word address: the lowest-numbered enabled region containing it (R23). -/
def lookup (regions : List Region) (a : Addr) : Classification := lookupFrom 0 regions a

/-- The class, none when unmapped. -/
def Classification.cls : Classification → Option RegionClass
  | .unmapped => none
  | .region _ c _ => some c

/-- No enabled region contains the address (R28). -/
def Classification.isUnmapped (c : Classification) : Bool := c.cls = none

/-- The class is ABSENT. -/
def Classification.isAbsent (c : Classification) : Bool := c.cls = some .absent

/-- The guard is set. -/
def Classification.guarded : Classification → Bool
  | .unmapped => false
  | .region _ _ g => g

/-- Forces may be held on the class: INPUT, OUTPUT, WORK or HOLD (R25, R41). -/
def RegionClass.forcible : RegionClass → Bool
  | .input | .output | .work | .hold => true
  | .program | .absent => false

/-- The pin classes: OUTPUT, WORK or HOLD (R41). -/
def RegionClass.pinned : RegionClass → Bool
  | .output | .work | .hold => true
  | .input | .program | .absent => false

/-- The access is overlaid (R42). -/
def Classification.forcible (c : Classification) : Bool := c.cls.any RegionClass.forcible

/-- The access is substituted (R45). -/
def Classification.pinned (c : Classification) : Bool := c.cls.any RegionClass.pinned

/-- The marker may lie here: an enabled region of class WORK or HOLD with the guard clear (R134, R142). -/
def Classification.markerAllowed : Classification → Bool
  | .region _ .work false => true
  | .region _ .hold false => true
  | _ => false

/-- A controller write with this classification is blocked (R8, R29). -/
def Classification.blocks (c : Classification) : Bool := !c.isAbsent && c.guarded

/-- A record of the fields R21 allows: base not above limit, guard clear in an ABSENT region. -/
def Region.valid (r : Region) : Bool :=
  decide (r.base ≤ r.limit) && !(r.cls = .absent && r.guard)

end Sys2Proof.Machine
end

