-- ==== Sys2Proof/Machine/Ops.lean ====
section
/-! DEFINITION. The shared operations of the blocks: the force table, the lease, the exchange, the capture unit, the arbiter,
the operation queue, the controller port, the supervisor and device reset. The meanings of the commands are written over
them. -/

namespace Sys2Proof.Machine

/-- What a command answers. -/
abbrev Result := Host.Outcome State Fault Refusal

/-- A count that holds at 255 (R31, R111, R151). -/
def countUp (n : Nat) : Nat := if n < Config.countLimit then n + 1 else n

/-! ## The Force Table (R38 to R58) -/

/-- The entry for an address (R39: at most one). -/
def entryFor (forces : List ForceEntry) (a : Addr) : Option ForceEntry := forces.find? (fun e => e.addr = a)

/-- The overlay of an entry: clear-mask bits made 0, set-mask bits made 1 (R42). -/
def overlayBy (e : Option ForceEntry) (w : Word) : Word :=
  match e with
  | none => w
  | some e => (w &&& ~~~e.clr) ||| e.set

/-- The read overlay under the policy of a held classification (R41, R42). -/
def overlay (forces : List ForceEntry) (cls : Classification) (a : Addr) (w : Word) : Word :=
  if cls.forcible then overlayBy (entryFor forces a) w else w

/-- The forced bits of an entry put into the enabled lanes of a written word (R45). -/
def substituteBy (e : Option ForceEntry) (w : Word) (lanes : Lanes) : Word :=
  match e with
  | none => w
  | some e => (w &&& ~~~(e.clr &&& lanes.mask)) ||| (e.set &&& lanes.mask)

/-- Write substitution under the policy of a held classification (R41, R45, R47). -/
def substitute (forces : List ForceEntry) (cls : Classification) (a : Addr) (w : Word) (lanes : Lanes) : Word :=
  if cls.pinned then substituteBy (entryFor forces a) w lanes else w

/-- Removes the entry for an address, if any. -/
def removeEntry (forces : List ForceEntry) (a : Addr) : List ForceEntry := forces.filter (fun e => e.addr ≠ a)

/-- Puts an entry in the place its address gives it (R39). -/
def insertEntry (e : ForceEntry) : List ForceEntry → List ForceEntry
  | [] => [e]
  | x :: rest => if e.addr < x.addr then e :: x :: rest else x :: insertEntry e rest

/-- Gives a word its new masks: the entry is removed, or not created, when both are empty (R51). -/
def putMasks (forces : List ForceEntry) (a : Addr) (set clr : Word) : List ForceEntry :=
  if set = 0 && clr = 0 then removeEntry forces a else insertEntry ⟨a, set, clr⟩ (removeEntry forces a)

/-- One word record of a FORCE (R178). -/
structure ForceWord where
  /-- The named word. -/
  addr : Addr
  /-- The force-set mask. -/
  fset : Word
  /-- The force-clear mask. -/
  fclr : Word
  /-- The release mask. -/
  rel : Word
  /-- The pulse-set mask. -/
  pset : Word
  /-- The pulse-clear mask. -/
  pclr : Word
  deriving DecidableEq, Repr

/-- The masks of a word, 0000H without an entry (R51). -/
def masksOf (forces : List ForceEntry) (a : Addr) : Word × Word :=
  match entryFor forces a with
  | none => (0, 0)
  | some e => (e.set, e.clr)

/-- One named word's changes of the force table (R51). -/
def applyForceWord (forces : List ForceEntry) (f : ForceWord) : List ForceEntry :=
  let old := masksOf forces f.addr
  putMasks forces f.addr ((old.1 ||| f.fset) &&& ~~~(f.fclr ||| f.rel)) ((old.2 ||| f.fclr) &&& ~~~(f.fset ||| f.rel))

/-- The changes of all words of a FORCE (R51). -/
def applyForce (forces : List ForceEntry) (words : List ForceWord) : List ForceEntry := words.foldl applyForceWord forces

/-- Release all (R54): the force table becomes empty and nothing else changes. -/
def State.releaseAll (s : State) : State := { s with forces := [] }

/-! ## The Lease Timer (R59 to R73) -/

/-- The part holds the turn (R65, R164). -/
def ExchState.holdsTurn : ExchState → Bool
  | .executing | .sending => true
  | .idle | .receiving | .awaitContinue => false

/-- The lease condition that follows the exchange state (R65). -/
def Lease.follow (l : Lease) (e : ExchState) : Lease :=
  { l with cond := if l.level = .view then .stopped else if e.holdsTurn then .paused else .running }

/-- Renewal: the remaining time is filled to the granted duration; at VIEW nothing changes (R66). -/
def Lease.renew (l : Lease) : Lease :=
  if l.level = .view then l else { l with remaining := (l.granted.getD 0) * Config.leaseUnit }

/-- A renewal notice (R164). -/
def State.renewLease (s : State) : State := { s with lease := s.lease.renew }

/-- The level becomes VIEW with release all at the same instant (R61, R64). -/
def State.dropToView (s : State) : State := { s.releaseAll with lease := Lease.view }

/-- A RUNNING lease has reached 0 (R67). -/
def State.leaseDue (s : State) : Bool := s.lease.cond = .running && s.lease.remaining = 0

/-- Expiry of the lease (R67). -/
def State.expireLease (s : State) : State := s.dropToView.latch .leaseLost

/-! ## The banks (R109, R120) -/

/-- A bank of the Snapshot Store. -/
def State.bank (s : State) : BankId → Bank
  | .a => s.bankA
  | .b => s.bankB

/-- Replaces a bank. -/
def State.setBank (s : State) (i : BankId) (b : Bank) : State :=
  match i with
  | .a => { s with bankA := b }
  | .b => { s with bankB := b }

/-- The other bank. -/
def BankId.other : BankId → BankId
  | .a => .b
  | .b => .a

/-- A bank becomes EMPTY: its snapshot is lost and the other bank is first in fill order (R109, R121). -/
def State.emptyBank (s : State) (i : BankId) : State :=
  (s.setBank i Bank.empty).setBank i.other { s.bank i.other with second := false }

/-- Moves the SENDING bank under transfer to a state (R123). -/
def State.releaseBank (s : State) (dest : BankState) : State :=
  match s.exch.bank with
  | none => s
  | some i => if (s.bank i).state = .sending then s.setBank i { s.bank i with state := dest } else s

/-! ## The exchange (R154 to R163) -/

/-- The exchange takes a state, and the lease follows it (R65, R164). -/
def State.enter (s : State) (e : ExchState) : State :=
  { s with exch := { s.exch with state := e }, lease := s.lease.follow e }

/-- The exchange ends in IDLE: its items become absent, the transmitter's lines are released, and a bank under transfer goes
to the state given (R154, R123). -/
def State.endExchange (s : State) (bankTo : BankState) : State :=
  let s := s.releaseBank bankTo
  { s with exch := { Exchange.reset with faults := s.exch.faults }, lease := s.lease.follow .idle }

/-- The number of frames a reply payload is cut into (R158). -/
def segmentCount (reply : List Byte) : Nat :=
  if reply.length ≤ Config.payloadLimit then 1 else (reply.length + 63) / Config.payloadLimit

/-- The piece of a reply payload at a position (R158). -/
def segmentPayload (reply : List Byte) (k : Nat) : List Byte :=
  (reply.drop (Config.payloadLimit * k)).take Config.payloadLimit

/-- Reply-ready (R156): the exchange holds the reply, cuts it and enters SENDING with its first frame to send. -/
def State.replyReady (s : State) (reply : List Byte) : State :=
  { s with
    exch := { s.exch with
      state := .sending, reply := some reply, segCount := some (segmentCount reply), nextIndex := some 1,
      send := some (.segment 0) },
    lease := s.lease.follow .sending }

/-- The status byte of a reply (R168). -/
inductive Status where
  | ok | unknown | format | level | range | cls | full | queueFull | busy | conflict | running | noneReady
  deriving DecidableEq, Repr

/-- The code of a status (R168). -/
def Status.code : Status → Byte
  | .ok => 0x00
  | .unknown => 0x01
  | .format => 0x02
  | .level => 0x03
  | .range => 0x04
  | .cls => 0x05
  | .full => 0x06
  | .queueFull => 0x07
  | .busy => 0x08
  | .conflict => 0x09
  | .running => 0x0A
  | .noneReady => 0x0B

/-- The owning block hands over the answer: the code echoed, the status and the data (R149, R167). -/
def State.answer (s : State) (st : Status) (data : List Byte) : State :=
  s.replyReady (s.exch.code.getD 0 :: st.code :: data)

/-! ## The Capture Unit (R108 to R119) -/

/-- Some element at the address is PENDING. -/
def pendingIn (a : Addr) : List Element → List ElemState → Bool
  | e :: es, st :: ss => (st = .pending && e.addr = a) || pendingIn a es ss
  | _, _ => false

/-- The address of the lowest-numbered PENDING element (R114). -/
def lowestPendingIn : List Element → List ElemState → Option Addr
  | e :: es, st :: ss => if st = .pending then some e.addr else lowestPendingIn es ss
  | _, _ => none

/-- A fill in flight holds a PENDING element at the address: the capture check (R11, R117). -/
def State.pendingAt (s : State) (a : Addr) : Bool :=
  match s.fill with
  | none => false
  | some f => pendingIn a s.watch.elements f.states

/-- The address of the lowest-numbered PENDING element of the fill in flight (R114). -/
def State.lowestPending (s : State) : Option Addr :=
  match s.fill with
  | none => none
  | some f => lowestPendingIn s.watch.elements f.states

/-- Gives a new value to the places of the elements that are PENDING at an address, and leaves every other place. -/
def capturePlaces {α : Type} (a : Addr) (value : Element → α) : List Element → List ElemState → List α → List α
  | e :: es, st :: ss, x :: xs =>
    (if st = .pending && e.addr = a then value e else x) :: capturePlaces a value es ss xs
  | _, _, xs => xs

/-- The forced flag of a captured element (R116). -/
def forcedFlag (items : List WatchItem) (entry : Option ForceEntry) (e : Element) : Bool :=
  match entry with
  | none => false
  | some f =>
    match items[e.item]? with
    | some (.bit _ b) => f.set.getLsbD b.toNat || f.clr.getLsbD b.toNat
    | _ => true

/-- Captures every element of the fill PENDING at an address from a word read at memory (R116). -/
def captureInto (s : State) (f : Fill) (a : Addr) (w : Word) : State :=
  let entry := entryFor f.frozen a
  let bank := s.bank f.bank
  let es := s.watch.elements
  { s.setBank f.bank { bank with
      words := capturePlaces a (fun _ => overlayBy entry w) es f.states bank.words,
      flags := capturePlaces a (forcedFlag s.watch.items entry) es f.states bank.flags }
    with fill := some { f with states := capturePlaces a (fun _ => .captured) es f.states f.states } }

/-- The fill completes: its bank is READY with the forced-present flag set, SNAP_READY is latched, the fill context is gone
and F's claim withdrawn (R119). -/
def completeFill (s : State) (f : Fill) : State :=
  let bank := s.bank f.bank
  let present := (bank.flags.take bank.header.elementCount).any id
  { (s.setBank f.bank { bank with state := .ready, header := { bank.header with forcedPresent := present } }).latch
      .snapReady
    with fill := none, arb := { s.arb with waitF := false } }

/-- Completes the fill in flight when no element of it is PENDING any longer (R119). -/
def State.settleFill (s : State) : State :=
  match s.fill with
  | none => s
  | some f => if f.states.all (fun st => st = ElemState.captured) then completeFill s f else s

/-- A word read at memory is handed to the Capture Unit (R114, R116, R117); without a fill in flight it is discarded
(R129). -/
def State.capture (s : State) (a : Addr) (w : Word) : State :=
  match s.fill with
  | none => s
  | some f => (captureInto s f a w).settleFill

/-! ## The Port Arbiter (R13 to R18) -/

/-- An engine is waiting. -/
def Arbiter.engineWaits (b : Arbiter) : Bool := b.waitF || b.waitQ

/-- Some claimant is waiting. -/
def Arbiter.anyWaits (b : Arbiter) : Bool := b.waitC || b.engineWaits

/-- The Memory Port is free and unreserved (R15). -/
def Arbiter.free (b : Arbiter) : Bool := b.grant.isNone && b.reservation.isNone

/-- The engine a decision grants: the one waiting, and of two the one other than the last (R16). -/
def Arbiter.nextEngine (b : Arbiter) : Engine :=
  if b.waitF && b.waitQ then (match b.lastEngine with | .f => .q | .q => .f) else if b.waitF then .f else .q

/-- A grant begins at memory with a read (R18). -/
def State.grantRead (s : State) (h : Claimant) (a : Addr) : State :=
  { s with arb := { s.arb with grant := some ⟨h, .read⟩ }, mport := .reading a }

/-- A grant begins for a write whose data is settled: the capture check, then a capture read or the write itself (R10,
R11, R78). -/
def State.grantWrite (s : State) (h : Claimant) (a : Addr) (d : Word) (lanes : Lanes) : State :=
  if s.pendingAt a then
    { s with arb := { s.arb with grant := some ⟨h, .captureRead d lanes⟩ }, mport := .reading a }
  else { s with arb := { s.arb with grant := some ⟨h, .write⟩ }, mport := .writing a d lanes }

/-- C is granted: the moment of forwarding (R6, R10). -/
def State.grantC (s : State) : State :=
  let s := { s with arb := { s.arb with waitC := false } }
  match s.port with
  | .active acc =>
    if acc.write then s.grantWrite .c acc.addr (substitute s.forces acc.cls acc.addr acc.data acc.lanes) acc.lanes
    else s.grantRead .c acc.addr
  | _ => s

/-- F is granted and its read's address fixed (R114). -/
def State.grantF (s : State) : State :=
  let s := { s with arb := { s.arb with waitF := false } }
  match s.lowestPending with
  | some a => s.grantRead .f a
  | none => s

/-- The held classification of an operation (R74). -/
def Operation.held (o : Operation) : Classification := o.cls.getD .unmapped

/-- Q is granted: the head becomes ACTIVE (R76 to R79). -/
def State.grantQ (s : State) : State :=
  let s := { s with arb := { s.arb with waitQ := false } }
  match s.ops with
  | [] => s
  | o :: rest =>
    let s := { s with ops := { o with active := true } :: rest }
    match o.kind with
    | .write d => s.grantWrite .q o.addr (substitute s.forces o.held o.addr d Lanes.both) Lanes.both
    | .read _ | .modify _ _ => s.grantRead .q o.addr

/-- An engine is granted: it becomes the last engine and the count returns to 0 (R16). -/
def State.grantEngine (s : State) (e : Engine) : State :=
  let s := { s with arb := { s.arb with count := 0, lastEngine := e } }
  match e with
  | .f => s.grantF
  | .q => s.grantQ

/-- C is granted at a decision: the count rises when an engine was waiting and is otherwise 0 (R16). -/
def State.grantController (s : State) : State :=
  { s with arb := { s.arb with count := if s.arb.engineWaits then s.arb.count + 1 else 0 } }.grantC

/-- A grant decision (R16). -/
def State.decideGrant (s : State) : State :=
  if s.arb.waitC && (decide (s.arb.count < Config.grantRun) || !s.arb.engineWaits) then s.grantController
  else if s.arb.engineWaits then s.grantEngine s.arb.nextEngine
  else s

/-- Claims have arrived since the arbiter stood as given: a decision is made when the port was free, unreserved and without
a waiting claimant (R15). -/
def State.claimArrives (s : State) (before : Arbiter) : State :=
  if before.free && !before.anyWaits then s.decideGrant else s

/-- The grant ends and the Memory Port returns to IDLE (R5, R18). -/
def State.endGrant (s : State) : State := { s with arb := { s.arb with grant := none }, mport := .idle }

/-- The time 250 ns after the count, in ns of the Time Base (R17, log entry 10). -/
def reservationEnd (t : Micros) : Nat := 1000 * t.toNat + Config.reservationNs

/-- What follows the end of a grant held by C: the reservation, or at a count of 4 with an engine waiting a decision at
once (R17). -/
def State.afterControllerGrant (s : State) : State :=
  if s.arb.count = Config.grantRun && s.arb.engineWaits then s.decideGrant
  else { s with arb := { s.arb with reservation := some (reservationEnd s.time) } }

/-! ## The Operation Queue (R74 to R90) -/

/-- Hands a word to a position of the completion record (R77, R83). -/
def Completion.put (c : Completion) (i : Nat) (w : Word) : Completion :=
  match c with
  | .sync => .sync
  | .peek rs => .peek (rs.set i (some w))

/-- Hands the result of a retiring operation on: the word of a READ goes to its position, unless its PEEK has been abandoned
(R80, R86). -/
def handOn (c : Option Completion) (o : Operation) (w : Word) : Option Completion :=
  match o.kind with
  | .read i => if o.dropped then c else c.map (·.put i w)
  | .write _ | .modify _ _ => c

/-- The head lookup (R76): ABSENT operations retire at once, a READ giving 0000H, and the first other operation holds its
classification. -/
def settleOps (regions : List Region) : List Operation → Option Completion → List Operation × Option Completion
  | [], c => ([], c)
  | o :: rest, c =>
    match o.cls with
    | some _ => (o :: rest, c)
    | none =>
      if (lookup regions o.addr).isAbsent then settleOps regions rest (handOn c o 0)
      else ({ o with cls := some (lookup regions o.addr) } :: rest, c)

/-- The head is WAITING: after the head lookup it needs memory, so Q is waiting (R14, R76). -/
def headWaits : List Operation → Bool
  | [] => false
  | o :: _ => !o.active

/-- The queue has a new head or none: it is looked up, and Q's claim follows it (R14, R76). -/
def State.settleHead (s : State) : State :=
  let (ops, c) := settleOps s.regions s.ops s.completion
  { s with ops := ops, completion := c, arb := { s.arb with waitQ := headWaits ops } }

/-- The reply data of a satisfied completion record (R83). -/
def Completion.data : Completion → List Byte
  | .sync => []
  | .peek rs => (rs.map (fun r => [(r.getD 0).extractLsb' 8 8, (r.getD 0).extractLsb' 0 8])).flatten

/-- The completion record is examined: satisfied by an empty queue, it becomes absent and the reply is ready (R83). -/
def State.examineRecord (s : State) : State :=
  match s.completion, s.ops with
  | some c, [] => { s with completion := none }.answer .ok c.data
  | _, _ => s

/-- The operations of one request join the tail together (R75), with the head lookup and Q's claim that follow. -/
def State.enqueue (s : State) (new : List Operation) : State :=
  ({ s with ops := s.ops ++ new }.settleHead.claimArrives s.arb).examineRecord

/-- The free places of the queue (R75). -/
def State.freePlaces (s : State) : Nat := Config.queueCapacity - s.ops.length

/-- The head retires with the word it read, if it read one (R80). -/
def State.retireHead (s : State) (w : Word) : State :=
  match s.ops with
  | [] => s
  | o :: rest =>
    { s with ops := rest, completion := handOn s.completion o w }.endGrant.settleHead.decideGrant.examineRecord

/-- A break abandons the PEEK or SYNC executing (R86): WAITING READs of the PEEK leave the queue, an ACTIVE one will drop
its word, and the completion record becomes absent. -/
def State.abandonRecord (s : State) : State :=
  match s.completion with
  | none => s
  | some .sync => { s with completion := none }
  | some (.peek _) =>
    let kept := s.ops.filter (fun o => o.active || o.origin ≠ .peek)
    let ops := kept.map (fun o => if o.origin = .peek then { o with dropped := true } else o)
    { s with ops := ops, completion := none }.settleHead

/-! ## The Controller Port (R1 to R4, R7 to R9) -/

/-- The Guard Log takes a blocked write (R31). -/
def GuardLog.take (g : GuardLog) (r : LogRecord) : GuardLog :=
  if g.records.length < Config.logCapacity then { g with records := g.records ++ [r] }
  else { g with dropped := countUp g.dropped }

/-- A block (R9, R29): the Guard Log takes the write and GUARD is latched. -/
def State.block (s : State) (acc : Access) : State :=
  { s with guardLog := s.guardLog.take ⟨acc.addr, acc.data, acc.lanes, s.sup.seq, s.time⟩ }.latch .guard

/-- The access the pins form (R1), classified (R4). -/
def accessOf (regions : List Region) (p : BusPins) : Access :=
  let lanes : Lanes := ⟨!p.ubn, !p.lbn⟩
  { addr := p.addr, write := !p.wen, lanes := lanes, data := if p.wen then 0 else p.data &&& lanes.mask,
    cls := lookup regions p.addr, ended := false }

/-- The access is forwarded to memory (R6, R8). -/
def Access.forwarded (acc : Access) : Bool := !acc.cls.isAbsent && !(acc.write && acc.cls.guarded)

/-- The take of an access, as the arbiter sees it: it ends a reservation with a decision, and a forwarded access claims
(R14, R15, R17). -/
def State.takeAtArbiter (s : State) (claims : Bool) : State :=
  let s' := { s with arb := { s.arb with waitC := s.arb.waitC || claims, reservation := none } }
  if s.arb.reservation.isSome then s'.decideGrant
  else if claims then s'.claimArrives s.arb
  else s'

/-- The idle port takes the access on its pins: it is forwarded, or completed locally at once (R1, R4, R6 to R9). -/
def State.takeAccess (s : State) : State :=
  let acc := accessOf s.regions s.bus
  if acc.forwarded then { s with port := .active acc }.takeAtArbiter true
  else
    let s := s.takeAtArbiter false
    if acc.write then { (if acc.cls.blocks then s.block acc else s) with port := .done acc none }
    else { s with port := .done acc (some 0) }

/-- The idle port takes the cycle on the bus if the conditions of R1 hold and SYSRSTN is high (R1, R3, R20). -/
def State.tryTake (s : State) : State :=
  if s.sysrstn && s.bus.takes && s.port = .idle then s.takeAccess else s

/-- The access in progress completes (R2): the port is DONE, or IDLE when the controller has ended the cycle, and then
takes the next cycle at once if there is one (R3). -/
def State.completeAccess (s : State) (word : Option Word) : State :=
  match s.port with
  | .active acc => if acc.ended then { s with port := .idle }.tryTake else { s with port := .done acc word }
  | _ => s

/-- The pins move so that the take conditions of R1 no longer hold: the cycle has ended (R2, R3). -/
def PortState.cycleEnds : PortState → PortState
  | .idle => .idle
  | .active acc => .active { acc with ended := true }
  | .done _ _ => .idle

/-- The controller's pins come to new levels (R1, R2, R3). -/
def State.moveBus (s : State) (p : BusPins) : State :=
  if p.takes then { s with bus := p }.tryTake else { s with bus := p, port := s.port.cycleEnds }

/-! ## The Scan Supervisor (R133 to R144) -/

/-- Supervision is possible (R136). -/
def Supervisor.possible (v : Supervisor) (ctlrun : Bool) : Bool := ctlrun && v.limit ≠ 0 && v.marker.isSome

/-- In TIMING the elapsed time is greater than the limit (R139). -/
def Supervisor.due (v : Supervisor) : Bool :=
  v.state = .timing && decide (v.limit.toNat * Config.scanUnit < (v.elapsed.getD 0).toNat)

/-- Records a period into the statistics (R138). -/
def Supervisor.record (v : Supervisor) (p : Micros) : Supervisor :=
  { v with
    lastPeriod := some p,
    minPeriod := match v.minPeriod with | none => some p | some m => some (if p < m then p else m),
    maxPeriod := match v.maxPeriod with | none => some p | some m => some (if m < p then p else m) }

/-- The period a marker records: the elapsed time in TIMING and STALLED (R137). -/
def Supervisor.periodAtMarker (v : Supervisor) : Option Micros :=
  match v.state with
  | .inactive | .waitingFirst => none
  | .timing | .stalled => some (v.elapsed.getD 0)

/-- The state-dependent work of a marker (R137). -/
def Supervisor.atMarker (v : Supervisor) : Supervisor :=
  let w := match v.periodAtMarker with | none => v | some p => v.record p
  match v.state with
  | .inactive => w
  | .waitingFirst | .timing | .stalled => { w with state := .timing, elapsed := some 0 }

/-- What the Scan Supervisor does at a marker (R135): the sequence, the state's work, the last marker time. -/
def Supervisor.takeMarker (v : Supervisor) (now : Micros) : Supervisor :=
  { { v with seq := v.seq + 1 }.atMarker with lastMarker := some now }

/-- Entry into STALLED (R139): STALL is latched and with action RELEASE release all is performed. -/
def State.enterStall (s : State) : State :=
  let t := { s with sup := { s.sup with state := .stalled } }.latch .stall
  if s.sup.action = .release then t.releaseAll else t

/-- The elapsed time counts one µs and holds at FFFFFFFFH (R133). -/
def countElapsed (e : Micros) : Micros := if e = BitVec.allOnes 32 then e else e + 1

/-! ## Fill start (R104, R110 to R113) -/

/-- The number of elements of an item (R93). -/
def WatchItem.elementCount : WatchItem → Nat
  | .bit _ _ => 1
  | .word _ => 1
  | .pair _ => 2
  | .block _ n _ => n
  | .grid _ n _ g _ => g * n

/-- The element addresses of an item, as unbounded sums (R93, R94). -/
def WatchItem.addresses : WatchItem → List Nat
  | .bit b _ => [b.toNat]
  | .word b => [b.toNat]
  | .pair b => [b.toNat, b.toNat + 1]
  | .block b n st => (List.range n).map (fun i => b.toNat + i * st)
  | .grid b n st g gs =>
    (List.range g).flatMap (fun j => (List.range n).map (fun i => b.toNat + j * gs + i * st))

/-- The expansion of items numbered from an index upward (R93). -/
def expandFrom : Nat → List WatchItem → List Element
  | _, [] => []
  | i, it :: rest => it.addresses.map (fun n => ⟨BitVec.ofNat 20 n, i⟩) ++ expandFrom (i + 1) rest

/-- The expansion of a watch list (R93). -/
def expandItems (items : List WatchItem) : List Element := expandFrom 0 items

/-- The layout of an item (R104). -/
def WatchItem.layout (it : WatchItem) : LayoutItem :=
  match it with
  | .bit _ b => ⟨.bit, it.elementCount, some b⟩
  | .word _ => ⟨.word, it.elementCount, none⟩
  | .pair _ => ⟨.pair, it.elementCount, none⟩
  | .block _ _ _ => ⟨.block, it.elementCount, none⟩
  | .grid _ _ _ _ _ => ⟨.grid, it.elementCount, none⟩

/-- The state an element starts in: CAPTURED as 0 in an ABSENT region, else PENDING (R112). -/
def startState (regions : List Region) (e : Element) : ElemState :=
  if (lookup regions e.addr).isAbsent then .captured else .pending

/-- A fill starts on a bank (R110, R112, R113), with the period the marker recorded. -/
def State.startFill (s : State) (i : BankId) (period : Option Micros) : State :=
  let states := s.watch.elements.map (startState s.regions)
  let header : Header :=
    { bank := i, generation := s.watch.generation, seq := s.sup.seq, time := s.time, period := period,
      missed := s.missed, elementCount := s.watch.elements.length, itemCount := s.watch.items.length,
      forcedPresent := false }
  let bank : Bank :=
    { state := .filling, header := header, layout := s.watch.items.map WatchItem.layout,
      words := Bank.empty.words, flags := Bank.empty.flags, second := (s.bank i.other).state ≠ .empty }
  let s := s.setBank i bank
  { s with
    fill := some ⟨i, s.forces, states⟩, missed := 0,
    watch := { s.watch with mode := if s.watch.mode = WatchMode.oneShot then WatchMode.off else s.watch.mode },
    arb := { s.arb with waitF := states.any (fun st => st = ElemState.pending) } }.settleFill

/-- The bank a fill starts on: A if it is EMPTY, otherwise B if it is (R110). -/
def State.freeBank (s : State) : Option BankId :=
  if s.bankA.state = .empty then some .a else if s.bankB.state = .empty then some .b else none

/-- The Capture Unit judges a marker (R110, R111). -/
def State.judgeMarker (s : State) (period : Option Micros) : State :=
  if s.watch.mode = .off then s
  else
    match s.fill, s.freeBank with
    | none, some i => s.startFill i period
    | _, _ => { s with missed := countUp s.missed }

/-- A marker (R12, R135): the Scan Supervisor takes it, then the Capture Unit. An expiry of the scan limit that is due has
been taken before it (R141, log entry 11). -/
def State.marker (s : State) : State :=
  let s := if s.sup.due then s.enterStall else s
  { s with sup := s.sup.takeMarker s.time }.judgeMarker s.sup.periodAtMarker

/-- The marker check of a controller write that has reached memory (R12, R134). -/
def State.markerCheck (s : State) (a : Addr) : State := if s.sup.marker = some a then s.marker else s

/-! ## The continuation limit (R161) -/

/-- The continuation time has reached 1 s in AWAIT_CONTINUE (R161). -/
def State.continuationDue (s : State) : Bool :=
  s.exch.state = .awaitContinue && decide (Config.continuationLimit ≤ s.exch.contTime.getD 0)

/-! ## Device reset (R19, R20) -/

/-- A grant in progress is carried to its end (R19): a write already settled reaches memory, and a controller write's marker
is taken. -/
def State.carryGrant (s : State) : State :=
  match s.arb.grant, s.mport with
  | some ⟨h, .captureRead d lanes⟩, .reading a =>
    let t := { s with mem := s.mem.writeWord a d lanes }
    if h = .c then t.markerCheck a else t
  | some ⟨h, .write⟩, .writing a d lanes =>
    let t := { s with mem := s.mem.writeWord a d lanes }
    if h = .c then t.markerCheck a else t
  | _, _ => s

/-- Every block takes its reset values while SYSRSTN is low (R13, R19, R20, R22, R34, R58, R59, R89, R92, R130, R144, R145,
R165, R198). The pins, the straps held until the next rise, and memory are no block's state. -/
def State.resetBlocks (s : State) : State :=
  { State.reset with
    pending := s.pending, sysrstn := false, bus := s.bus, ctlrun := s.ctlrun, strapNode := s.strapNode,
    strapRate := s.strapRate, mem := s.mem }

end Sys2Proof.Machine
end

