-- ==== Sys2Proof/Machine/Operands.lean ====
section
/-! DEFINITION. The parameter layouts of the requests (R170, R190 to R192): every form the bytes after the request code may
take. A layout that fails answers none, which is the FORMAT check of the request. -/

namespace Sys2Proof.Machine

/-- A level code (R191). -/
def levelOf (b : Byte) : Option Level :=
  if b = 0x00 then some .view else if b = 0x01 then some .tune else if b = 0x02 then some .service else none

/-- LEVEL: level and duration (R62, R190); the duration is not judged with VIEW. -/
def parseLevel : List Byte → Option (Level × Nat)
  | [l, hi, lo] =>
    match levelOf l with
    | none => none
    | some .view => some (.view, (word2 hi lo).toNat)
    | some lv =>
      let d := (word2 hi lo).toNat
      if 1 ≤ d && d ≤ Config.leaseMax then some (lv, d) else none
  | _ => none

/-- PEEK: start address and count 1 to 32 (R175). -/
def parsePeek : List Byte → Option (Addr × Nat)
  | [b2, b1, b0, n] =>
    match addr3 b2 b1 b0 with
    | none => none
    | some a => if 1 ≤ n.toNat && n.toNat ≤ 32 then some (a, n.toNat) else none
  | _ => none

/-- POKE: start address, count 1 to 24 and the data words (R176). -/
def parsePoke : List Byte → Option (Addr × List Word)
  | b2 :: b1 :: b0 :: n :: data =>
    match addr3 b2 b1 b0, words2 data with
    | some a, some ws =>
      if 1 ≤ n.toNat && n.toNat ≤ 24 && ws.length = n.toNat then some (a, ws) else none
    | _, _ => none
  | _ => none

/-- The word records of a FORCE, as many as a count says and no byte left over (R190). -/
def parseForceWords : Nat → List Byte → Option (List ForceWord)
  | 0, [] => some []
  | n + 1, a2 :: a1 :: a0 :: s1 :: s0 :: c1 :: c0 :: r1 :: r0 :: p1 :: p0 :: q1 :: q0 :: rest =>
    match addr3 a2 a1 a0, parseForceWords n rest with
    | some a, some ws => some (⟨a, word2 s1 s0, word2 c1 c0, word2 r1 r0, word2 p1 p0, word2 q1 q0⟩ :: ws)
    | _, _ => none
  | _, _ => none

/-- No two of the five masks share a bit (R50). -/
def ForceWord.disjoint (f : ForceWord) : Bool :=
  f.fset &&& f.fclr = 0 && (f.fset ||| f.fclr) &&& f.rel = 0 && (f.fset ||| f.fclr ||| f.rel) &&& f.pset = 0
    && (f.fset ||| f.fclr ||| f.rel ||| f.pset) &&& f.pclr = 0

/-- The words of a FORCE meet R50: no two with the same address, the masks of each disjoint. -/
def forceWordsValid : List ForceWord → Bool
  | [] => true
  | f :: rest => f.disjoint && rest.all (fun g => g.addr ≠ f.addr) && forceWordsValid rest

/-- FORCE: count 1 to 4 and its word records (R50, R178). -/
def parseForce : List Byte → Option (List ForceWord)
  | n :: data =>
    match parseForceWords n.toNat data with
    | none => none
    | some ws => if 1 ≤ n.toNat && n.toNat ≤ 4 && forceWordsValid ws then some ws else none
  | [] => none

/-- A count or groups field in its range 1 to 256 (R91). -/
def countOf (hi lo : Byte) : Option Nat :=
  let n := (word2 hi lo).toNat
  if 1 ≤ n && n ≤ 256 then some n else none

/-- A stride field in its range 1 to 65535 (R91). -/
def strideOf (hi lo : Byte) : Option Nat :=
  let n := (word2 hi lo).toNat
  if 1 ≤ n then some n else none

/-- A group stride field in its range 1 to FFFFFH (R91). -/
def groupStrideOf (b2 b1 b0 : Byte) : Option Nat :=
  let n := value3 b2 b1 b0
  if 1 ≤ n && n ≤ Config.lastAddr then some n else none

/-- The first item encoding of a list of bytes, with the bytes after it (R91, R192). -/
def parseItem : List Byte → Option (WatchItem × List Byte)
  | 0x01 :: a2 :: a1 :: a0 :: b :: rest =>
    match addr3 a2 a1 a0 with
    | some a => if b.toNat ≤ 15 then some (.bit a (b.setWidth 4), rest) else none
    | none => none
  | 0x02 :: a2 :: a1 :: a0 :: rest => (addr3 a2 a1 a0).map (fun a => (.word a, rest))
  | 0x03 :: a2 :: a1 :: a0 :: rest => (addr3 a2 a1 a0).map (fun a => (.pair a, rest))
  | 0x04 :: a2 :: a1 :: a0 :: n1 :: n0 :: s1 :: s0 :: rest =>
    match addr3 a2 a1 a0, countOf n1 n0, strideOf s1 s0 with
    | some a, some n, some st => some (.block a n st, rest)
    | _, _, _ => none
  | 0x05 :: a2 :: a1 :: a0 :: n1 :: n0 :: s1 :: s0 :: g1 :: g0 :: t2 :: t1 :: t0 :: rest =>
    match addr3 a2 a1 a0, countOf n1 n0, strideOf s1 s0, countOf g1 g0, groupStrideOf t2 t1 t0 with
    | some a, some n, some st, some g, some gs => some (.grid a n st g gs, rest)
    | _, _, _, _, _ => none
  | _ => none

/-- As many item encodings as a count says and no byte left over (R181). -/
def parseItemList : Nat → List Byte → Option (List WatchItem)
  | 0, [] => some []
  | 0, _ :: _ => none
  | n + 1, bs =>
    match parseItem bs with
    | none => none
    | some (it, rest) => (parseItemList n rest).map (it :: ·)

/-- WATCH DEFINE and WATCH APPEND: the item count and the encodings (R181). -/
def parseItems : List Byte → Option (List WatchItem)
  | n :: data => parseItemList n.toNat data
  | [] => none

/-- WATCH ARM: one mode, not OFF (R183). -/
def parseArm : List Byte → Option WatchMode
  | [m] => if m = 0x01 then some .oneShot else if m = 0x02 then some .continuous else none
  | _ => none

/-- One byte, 00H or 01H: SNAP READ's map (R184) and SCAN STATS' clear (R185). -/
def parseFlag : List Byte → Option Bool
  | [b] => if b = 0x00 then some false else if b = 0x01 then some true else none
  | _ => none

/-- SCAN CONFIG: marker address or none, scan limit, stall action (R142, R185). -/
def parseScanConfig : List Byte → Option (Option Addr × BitVec 16 × StallAction)
  | [p, a2, a1, a0, l1, l0, act] =>
    let action : Option StallAction := if act = 0x00 then some .none else if act = 0x01 then some .release else none
    let marker : Option (Option Addr) :=
      if p = 0x00 then some none else if p = 0x01 then (addr3 a2 a1 a0).map some else none
    match marker, action with
    | some m, some x => some (m, word2 l1 l0, x)
    | _, _ => none
  | _ => none

/-- A region class code (R191). -/
def classOf (b : Byte) : Option RegionClass :=
  if b = 0x00 then some .input else if b = 0x01 then some .output else if b = 0x02 then some .work
  else if b = 0x03 then some .hold else if b = 0x04 then some .program else if b = 0x05 then some .absent else none

/-- REGION SET: a region record that R35 does not refuse with FORMAT (R186). -/
def parseRegion : List Byte → Option (Nat × Region)
  | [i, fl, b2, b1, b0, l2, l1, l0, c] =>
    match addr3 b2 b1 b0, addr3 l2 l1 l0, classOf c with
    | some base, some limit, some cls =>
      let r : Region := ⟨fl.getLsbD 0, base, limit, cls, fl.getLsbD 1⟩
      if i.toNat ≤ 7 && r.valid then some (i.toNat, r) else none
    | _, _, _ => none
  | _ => none

/-- ALERT CLEAR and ALERT ENABLE: one alert mask (R188). -/
def parseMask : List Byte → Option AlertSet
  | [m] => some (AlertSet.ofMask m)
  | _ => none

end Sys2Proof.Machine
end

