-- ==== Sys2Proof/Machine/Replies.lean ====
section
/-! DEFINITION. The byte layouts of reply data (R191 to R197). -/

namespace Sys2Proof.Machine

/-- The code of a level (R191). -/
def Level.code : Level → Byte
  | .view => 0x00 | .tune => 0x01 | .service => 0x02

/-- The code of a region class (R191). -/
def RegionClass.code : RegionClass → Byte
  | .input => 0x00 | .output => 0x01 | .work => 0x02 | .hold => 0x03 | .program => 0x04 | .absent => 0x05

/-- The code of a watch mode (R191). -/
def WatchMode.code : WatchMode → Byte
  | .off => 0x00 | .oneShot => 0x01 | .continuous => 0x02

/-- The code of a bank state (R191). -/
def BankState.code : BankState → Byte
  | .empty => 0x00 | .filling => 0x01 | .ready => 0x02 | .sending => 0x03 | .sent => 0x04

/-- The code of a supervisor state (R191). -/
def SupState.code : SupState → Byte
  | .inactive => 0x00 | .waitingFirst => 0x01 | .timing => 0x02 | .stalled => 0x03

/-- The code of a stall action (R191). -/
def StallAction.code : StallAction → Byte
  | .none => 0x00 | .release => 0x01

/-- The code of a bank (R191). -/
def BankId.code : BankId → Byte
  | .a => 0x00 | .b => 0x01

/-- The code of the lanes of a log record (R191). -/
def Lanes.code (l : Lanes) : Byte := (if l.lower then 0x01 else 0) ||| (if l.upper then 0x02 else 0)

/-- The encoding of a watch item (R192). -/
def WatchItem.encode : WatchItem → List Byte
  | .bit a b => 0x01 :: bytes3 a ++ [b.setWidth 8]
  | .word a => 0x02 :: bytes3 a
  | .pair a => 0x03 :: bytes3 a
  | .block a n st => 0x04 :: bytes3 a ++ bytes2Of n ++ bytes2Of st
  | .grid a n st g gs =>
    0x05 :: bytes3 a ++ bytes2Of n ++ bytes2Of st ++ bytes2Of g ++ bytes3 (BitVec.ofNat 20 gs)

/-- A force list entry (R193). -/
def ForceEntry.encode (e : ForceEntry) : List Byte := bytes3 e.addr ++ bytes2 e.set ++ bytes2 e.clr

/-- The FORCE LIST data (R57, R180). -/
def forceListData (forces : List ForceEntry) : List Byte := byteOf forces.length :: forces.flatMap ForceEntry.encode

/-- A region record (R193). -/
def Region.encode (i : Nat) (r : Region) : List Byte :=
  [byteOf i, (if r.enabled then 0x01 else 0) ||| (if r.guard then 0x02 else 0)] ++ bytes3 r.base ++ bytes3 r.limit
    ++ [r.cls.code]

/-- Region records numbered from an index upward. -/
def encodeRegions : Nat → List Region → List Byte
  | _, [] => []
  | i, r :: rest => r.encode i ++ encodeRegions (i + 1) rest

/-- A log record (R193). -/
def LogRecord.encode (r : LogRecord) : List Byte :=
  bytes3 r.addr ++ bytes2 r.data ++ [r.lanes.code] ++ bytes2 r.seq ++ bytes4 r.time

/-- The LOG READ data (R32, R187). -/
def GuardLog.data (g : GuardLog) : List Byte :=
  [byteOf g.records.length, byteOf g.dropped] ++ g.records.flatMap LogRecord.encode

/-- The data of a WATCH DEFINE or WATCH APPEND reply (R193). -/
def Watch.summary (w : Watch) : List Byte :=
  bytes2 w.generation ++ [byteOf w.items.length] ++ bytes2Of w.elements.length

/-- The WATCH LIST data (R105, R182, R193). -/
def Watch.listData (w : Watch) : List Byte :=
  bytes2 w.generation ++ [w.mode.code, byteOf w.items.length] ++ bytes2Of w.elements.length
    ++ w.items.flatMap WatchItem.encode

/-- The IDENTIFY data (R194, R204). -/
def identifyData (node : BitVec 4) : List Byte :=
  bytes2 Config.familyCode
    ++ [Config.revision, node.setWidth 8, byteOf 8, byteOf Config.forceCapacity, byteOf Config.queueCapacity,
      byteOf Config.itemCapacity]
    ++ bytes2Of Config.elementCapacity ++ [byteOf Config.logCapacity]

/-- The remaining time in units of 100 ms, rounded up (R73). -/
def Lease.units (l : Lease) : Nat := (l.remaining + (Config.leaseUnit - 1)) / Config.leaseUnit

/-- The STATUS data (R194, R203). -/
def State.statusData (s : State) : List Byte :=
  [s.lease.level.code] ++ bytes2Of s.lease.units
    ++ [byteOfBool s.ctlrun, s.latched.toMask, s.enabled.toMask, byteOf s.forces.length, byteOf s.ops.length,
      s.watch.mode.code, byteOf s.watch.items.length]
    ++ bytes2Of s.watch.elements.length ++ bytes2 s.watch.generation
    ++ [s.bankA.state.code, s.bankB.state.code, byteOf s.missed, s.sup.state.code] ++ bytes2 s.sup.seq
    ++ [byteOf s.guardLog.records.length, byteOf s.guardLog.dropped, byteOf s.exch.faults]

/-- The presence byte of the SCAN STATS data (R194, R195). -/
def Supervisor.presence (v : Supervisor) : Byte :=
  packByte [v.lastMarker.isSome, v.lastPeriod.isSome, v.minPeriod.isSome, v.maxPeriod.isSome, v.marker.isSome]

/-- The SCAN STATS data (R143, R194, R195). -/
def Supervisor.statsData (v : Supervisor) : List Byte :=
  [v.state.code, v.presence] ++ bytes2 v.seq ++ bytes4 (v.lastMarker.getD 0) ++ bytes4 (v.lastPeriod.getD 0)
    ++ bytes4 (v.minPeriod.getD 0) ++ bytes4 (v.maxPeriod.getD 0) ++ bytes3 (v.marker.getD 0) ++ bytes2 v.limit
    ++ [v.action.code]

/-- The bytes of an element word (R127). -/
def wordBytes (w : Word) : List Byte := bytes2 w

/-- The values of one item from its element words (R127). -/
def LayoutItem.values (it : LayoutItem) (ws : List Word) : List Byte :=
  match it.bit with
  | some b => (ws.take 1).map (fun w => byteOfBool (w.getLsbD b.toNat))
  | none => ws.flatMap wordBytes

/-- The values part of a readout: the items in order, each with its elements' words (R126, R127). -/
def valuesPart : List LayoutItem → List Word → List Byte
  | [], _ => []
  | it :: rest, ws => it.values (ws.take it.count) ++ valuesPart rest (ws.drop it.count)

/-- The values length: one byte per BIT item and two per element of every other (R127, R197). -/
def valuesLength : List LayoutItem → Nat
  | [] => 0
  | it :: rest => (if it.bit.isSome then 1 else 2 * it.count) + valuesLength rest

/-- The map size in bytes (R128). -/
def mapSize (n : Nat) : Nat := (n + 7) / 8

/-- The header bytes of a readout (R196, R197). -/
def Bank.headerBytes (b : Bank) : List Byte :=
  let h := b.header
  [0x1A, h.bank.code, byteOfBool h.forcedPresent, byteOfBool h.period.isSome] ++ bytes2 h.generation ++ bytes2 h.seq
    ++ bytes4 h.time ++ bytes4 (h.period.getD 0) ++ [byteOf h.missed] ++ bytes2Of h.itemCount
    ++ bytes2Of h.elementCount ++ bytes2Of (valuesLength b.layout) ++ [byteOf (mapSize h.elementCount)]
    ++ bytes2Of (26 + valuesLength b.layout)

/-- The readout of a bank, with the forced-flag map or without (R126, R197). -/
def Bank.readout (b : Bank) (map : Bool) : List Byte :=
  b.headerBytes ++ valuesPart b.layout (b.words.take b.header.elementCount)
    ++ (if map then packFlags (mapSize b.header.elementCount) (b.flags.take b.header.elementCount) else [])

end Sys2Proof.Machine
end

