-- ==== Sys2Proof/Machine/Link.lean ====
section
/-! DEFINITION. The Link Controller's shared operations: judging a frame (R149 to R153), the taking of a request (R155), the
frames sent (R146, R156, R158) and the end of a frame. -/

namespace Sys2Proof.Machine

/-- The five kinds of frame (R189). -/
inductive FrameKind where
  | request | reply | part | cont | abort
  deriving DecidableEq, Repr

/-- The code of a kind (R189). -/
def FrameKind.code : FrameKind → BitVec 4
  | .request => 1 | .reply => 2 | .part => 3 | .cont => 4 | .abort => 5

/-- The kind a kind byte names by its upper four bits (R189). -/
def kindOf (b : Byte) : Option FrameKind :=
  let k : BitVec 4 := b.extractLsb' 4 4
  if k = 1 then some .request else if k = 2 then some .reply else if k = 3 then some .part
  else if k = 4 then some .cont else if k = 5 then some .abort else none

/-- The segment number of a kind byte (R189). -/
def segmentOf (b : Byte) : Nat := (b.extractLsb' 0 4 : BitVec 4).toNat

/-- The node value is this part's strapped address; a part strapped 15 has none (R147). -/
def State.isOwn (s : State) (node : Byte) : Bool := node.toNat = s.strapNode.toNat && s.strapNode ≠ 15

/-- What a frame is at its final byte (R151 to R153). -/
inductive FrameEvent where
  /-- A turn violation (R152). -/
  | violation
  /-- Discarded for an error, a failed check or an unknown kind (R151). -/
  | bad
  /-- REPLY or PART, or a CONTINUE or ABORT to another node: ignored (R153). -/
  | ignored
  /-- A REQUEST to another node (R160). -/
  | requestOther
  /-- A REQUEST to node 15 with its payload (R157). -/
  | broadcast (payload : List Byte)
  /-- A CONTINUE to this node, or to node 15, with its segment number (R159, R162). -/
  | cont (own : Bool) (segment : Nat)
  /-- An ABORT to this node, or to node 15 (R160, R162). -/
  | abort (own : Bool)
  /-- A REQUEST to this node with its payload (R155). -/
  | request (payload : List Byte)
  deriving DecidableEq, Repr

/-- The receiver takes characters: SYSRSTN is high, the line has returned to mark and the part is not transmitting (R146,
R148, R165). -/
def State.listening (s : State) : Bool := s.sysrstn && !s.rx.awaitMark && !s.exch.lde

/-- The fields of a frame that lacks only its final byte: node, kind and payload (R150). -/
def RxFrame.fields (f : RxFrame) : Option (Byte × Byte × List Byte) :=
  match f.chars with
  | node :: kind :: len :: payload => if payload.length = len.toNat then some (node, kind, payload) else none
  | _ => none

/-- What a valid frame is, by kind and node (R153). -/
def State.judgeValid (s : State) (node kind : Byte) (payload : List Byte) : FrameEvent :=
  let own := s.isOwn node
  let all : Bool := node.toNat = Config.broadcastNode
  match kindOf kind with
  | none => .bad
  | some .request => if own then .request payload else if all then .broadcast payload else .requestOther
  | some .reply | some .part => .ignored
  | some .cont => if own || all then .cont own (segmentOf kind) else .ignored
  | some .abort => if own || all then .abort own else .ignored

/-- What a frame is at its final byte (R149, R151, R152, R153). -/
def State.judgeFrame (s : State) (f : RxFrame) (node kind : Byte) (payload : List Byte) (c : RxChar) : FrameEvent :=
  if f.violation then .violation
  else if f.flagged || c.flagged || byteSum f.chars + c.data ≠ 0 then .bad
  else s.judgeValid node kind payload

/-- What the character ends as the final byte of the frame under assembly, none when it is no final byte. -/
def State.finalByte (s : State) (c : RxChar) : Option FrameEvent :=
  match s.rx.state with
  | .hunt => none
  | .assembling f =>
    match f.fields with
    | none => none
    | some (node, kind, payload) => if s.listening then some (s.judgeFrame f node kind payload c) else none

/-- The frame under assembly ends: the receiver hunts, and the exchange returns to IDLE from RECEIVING (R150). -/
def State.endFrame (s : State) : State :=
  let t := { s with rx := { s.rx with state := .hunt } }
  if s.exch.state = .receiving then t.enter .idle else t

/-- A frame is discarded: it ends, the link fault count advances and LINK_FAULT is latched (R151). -/
def State.discardFrame (s : State) : State :=
  let t := s.endFrame
  { t with exch := { t.exch with faults := countUp t.exch.faults } }.latch .linkFault

/-- A transfer in AWAIT_CONTINUE ends early (R160). -/
def State.endTransfer (s : State) : State :=
  if s.exch.state = .awaitContinue then s.endExchange .ready else s

/-- A REQUEST to this node is taken for execution: a transfer ends first, the lease is renewed and paused, and the exchange
enters EXECUTING with the request code (R155). -/
def State.takeRequest (s : State) (code : Byte) : State :=
  let t := s.endFrame.endTransfer.renewLease
  { t with exch := { t.exch with code := some code } }.enter .executing

/-- The request row's command: when the character ends a REQUEST to this node with this code, the request is taken and
carried out on its parameters; otherwise its event does not occur (log entries 7, 8). -/
def State.onRequest (s : State) (c : RxChar) (code : Byte) (carryOut : List Byte → State → State) : Result :=
  match s.finalByte c with
  | some (.request (k :: params)) => .next (if k = code then carryOut params (s.takeRequest code) else s)
  | _ => .next s

/-- The request codes that name a request (section 10.2). -/
def requestCodes : List Byte :=
  [0x01, 0x02, 0x03, 0x04, 0x05, 0x10, 0x11, 0x12, 0x20, 0x21, 0x22, 0x30, 0x31, 0x32, 0x33, 0x34, 0x38, 0x39, 0x40,
    0x41, 0x50, 0x51, 0x58, 0x60, 0x61]

/-- The bytes of a frame the part sends (R149, R189). -/
def frameBytes (node : Byte) (kind : FrameKind) (segment : Nat) (payload : List Byte) : List Byte :=
  let body := node :: (kind.code ++ BitVec.ofNat 4 segment) :: byteOf payload.length :: payload
  Config.startByte :: body ++ [0 - byteSum body]

/-- The segment at a position is the last (R158). -/
def Exchange.isLast (e : Exchange) (k : Nat) : Bool := e.segCount = some (k + 1)

/-- The frame a SENDING exchange has to send (R156, R158, R159). -/
def State.outgoing (s : State) : Option (List Byte) :=
  let node : Byte := s.strapNode.setWidth 8
  match s.exch.send with
  | none => none
  | some .formatReply => some (frameBytes node .reply 0 [s.exch.code.getD 0, Status.format.code])
  | some (.segment k) =>
    some (frameBytes node (if s.exch.isLast k then .reply else .part) (k % 16)
      (segmentPayload (s.exch.reply.getD []) k))

/-- A CONTINUE is served in AWAIT_CONTINUE (R159): the same segment, the next one, or the FORMAT reply, with which the
transfer ends. -/
def State.serveContinue (s : State) (segment : Nat) : State :=
  let last := s.exch.lastSent.getD 0
  let next := s.exch.nextIndex.getD 1
  if segment = last then
    { s with exch := { s.exch with send := some (.segment (next - 1)) } }.enter .sending
  else if segment = (last + 1) % 16 then
    { s with exch := { s.exch with send := some (.segment next), nextIndex := some (next + 1) } }.enter .sending
  else
    let t := s.releaseBank .ready
    { t with exch := { Exchange.reset with faults := s.exch.faults, code := s.exch.code, send := some .formatReply } }.enter
      .sending

/-- A broadcast request is acted on (R71, R157): RELEASE ALL with an empty payload and LEVEL asking for VIEW. -/
def State.actBroadcast (s : State) (payload : List Byte) : State :=
  match payload with
  | [] => s
  | k :: params =>
    if k = 0x21 then (if params = [] then s.releaseAll else s)
    else if k = 0x04 then
      match parseLevel params with
      | some (.view, _) => s.dropToView
      | _ => s
    else s

/-- The bits of a character on the line, in the order sent: start bit at space, data bits from bit 0, even parity, stop bit
at mark; true is mark (R146). -/
def charBits (b : Byte) : List Bool := false :: (List.range 8).map (fun i => b.getLsbD i) ++ [evenParity b, true]

end Sys2Proof.Machine
end

