-- ==== Sys2Proof/Machine/SessionRequests.lean ====
section
/-! DEFINITION. The session and identification requests (section 10.3 and file 11), with the two answers to a REQUEST that
names none. -/

namespace Sys2Proof.Machine

/-- EMPTY_REQUEST (R155): a REQUEST of length 0 is answered with echoed code 00H and status FORMAT. -/
def execEmptyRequest (c : RxChar) (s : State) : Result :=
  .next (if s.finalByte c = some (.request []) then (s.takeRequest 0x00).answer .format [] else s)

/-- UNKNOWN_REQUEST (R167): a code that names no request is answered UNKNOWN. -/
def execUnknownRequest (c : RxChar) (s : State) : Result :=
  match s.finalByte c with
  | some (.request (k :: _)) =>
    .next (if requestCodes.contains k then s else (s.takeRequest k).answer .unknown [])
  | _ => .next s

/-- A request without parameters: FORMAT with any byte after the code (R170), else its own doing. -/
def withoutParams (carryOut : State → State) (params : List Byte) (s : State) : State :=
  if params = [] then carryOut s else s.answer .format []

/-- PROBE on its parameters (R171, R205). -/
def doProbe (params : List Byte) (s : State) : State :=
  if params.length ≤ 62 then s.answer .ok params else s.answer .format []

/-- PROBE (R171, R205). -/
def execProbe (c : RxChar) (s : State) : Result := s.onRequest c 0x01 doProbe

/-- IDENTIFY (R172, R204). -/
def execIdentify (c : RxChar) (s : State) : Result :=
  s.onRequest c 0x02 (withoutParams (fun s => s.answer .ok (identifyData s.strapNode)))

/-- STATUS (R172, R203). -/
def execStatus (c : RxChar) (s : State) : Result :=
  s.onRequest c 0x03 (withoutParams (fun s => s.answer .ok s.statusData))

/-- A grant of TUNE or SERVICE (R63). -/
def State.grantLevel (s : State) (lv : Level) (d : Nat) : State :=
  { s with lease := ⟨lv, some d, d * Config.leaseUnit, .paused⟩ }

/-- LEVEL on its parameters (R62, R63, R64, R173). -/
def doLevel (params : List Byte) (s : State) : State :=
  match parseLevel params with
  | none => s.answer .format []
  | some (.view, _) => s.dropToView.answer .ok []
  | some (lv, d) => (s.grantLevel lv d).answer .ok []

/-- LEVEL (R62, R63, R64, R173). -/
def execLevel (c : RxChar) (s : State) : Result := s.onRequest c 0x04 doLevel

/-- Every change of SESSION CLEAR (R72, R87, R106, R129). -/
def State.clearSession (s : State) : State :=
  let ops := s.ops.filter Operation.active
  let t := s.dropToView
  { t with
    ops := ops, arb := { t.arb with waitF := false, waitQ := headWaits ops },
    watch := ⟨[], [], s.watch.generation + 1, .off⟩, fill := none, missed := 0, bankA := Bank.empty,
    bankB := Bank.empty }

/-- SESSION CLEAR (R72, R174). -/
def execSessionClear (c : RxChar) (s : State) : Result :=
  s.onRequest c 0x05 (withoutParams (fun s => s.clearSession.answer .ok []))

end Sys2Proof.Machine
end

