-- ==== Sys2Proof/Machine/MemoryRequests.lean ====
section
/-! DEFINITION. The memory and force requests (section 10.4 and files 03, 05). -/

namespace Sys2Proof.Machine

/-- The words of a run, from its start address upward, as unbounded numbers (R175, R176). -/
def runAddresses (a : Addr) (n : Nat) : List Nat := (List.range n).map (a.toNat + ·)

/-- A word address named as a number: above FFFFFH, or unmapped (R26, R168). -/
def outOfRange (regions : List Region) (n : Nat) : Bool :=
  decide (Config.lastAddr < n) || (lookup regions (BitVec.ofNat 20 n)).isUnmapped

/-- PEEK's completion record and READ operations (R84). -/
def State.acceptPeek (s : State) (a : Addr) (n : Nat) : State :=
  { s with completion := some (.peek (List.replicate n none)) }.enqueue
    ((List.range n).map (fun i => ⟨.read i, a + BitVec.ofNat 20 i, .peek, false, none, false⟩))

/-- PEEK on its parameters (R84, R175). -/
def doPeek (params : List Byte) (s : State) : State :=
  match parsePeek params with
  | none => s.answer .format []
  | some (a, n) =>
    if (runAddresses a n).any (outOfRange s.regions) then s.answer .range []
    else if s.freePlaces < n then s.answer .queueFull []
    else s.acceptPeek a n

/-- PEEK (R84, R175). -/
def execPeek (c : RxChar) (s : State) : Result := s.onRequest c 0x10 doPeek

/-- The WRITE operations of a POKE (R82). -/
def pokeOps : Addr → List Word → List Operation
  | _, [] => []
  | a, w :: rest => ⟨.write w, a, .poke, false, none, false⟩ :: pokeOps (a + 1) rest

/-- The classes of the words of a run. -/
def runClasses (regions : List Region) (a : Addr) (n : Nat) : List (Option RegionClass) :=
  (runAddresses a n).map (fun m => (lookup regions (BitVec.ofNat 20 m)).cls)

/-- A POKE may not act on the class at TUNE: INPUT or PROGRAM (R26, R176). -/
def pokeNeedsService (c : Option RegionClass) : Bool := c = some .input || c = some .program

/-- POKE on its parameters (R82, R176). -/
def doPoke (params : List Byte) (s : State) : State :=
  match parsePoke params with
  | none => s.answer .format []
  | some (a, ws) =>
    let classes := runClasses s.regions a ws.length
    if s.lease.level = .view then s.answer .level []
    else if (runAddresses a ws.length).any (outOfRange s.regions) then s.answer .range []
    else if s.lease.level = .tune && classes.any pokeNeedsService then s.answer .cls []
    else if s.ctlrun && classes.any (· = some .program) then s.answer .running []
    else if s.freePlaces < ws.length then s.answer .queueFull []
    else (s.enqueue (pokeOps a ws)).answer .ok []

/-- POKE (R82, R176). -/
def execPoke (c : RxChar) (s : State) : Result := s.onRequest c 0x11 doPoke

/-- SYNC (R85, R177): the completion record is made, queues nothing and is examined at once. -/
def execSync (c : RxChar) (s : State) : Result :=
  s.onRequest c 0x12 (withoutParams (fun s => { s with completion := some .sync }.examineRecord))

/-- The MODIFY operation a FORCE queues for a word, if any (R52). -/
def forceOp (regions : List Region) (f : ForceWord) : Option Operation :=
  if (lookup regions f.addr).pinned || f.pset ≠ 0 || f.pclr ≠ 0 then
    some ⟨.modify f.pset f.pclr, f.addr, .force, false, none, false⟩
  else none

/-- FORCE on its parameters (R50 to R52, R178). -/
def doForce (params : List Byte) (s : State) : State :=
  match parseForce params with
  | none => s.answer .format []
  | some ws =>
    let forces := applyForce s.forces ws
    let ops := ws.filterMap (forceOp s.regions)
    if s.lease.level = .view then s.answer .level []
    else if ws.any (fun f => (lookup s.regions f.addr).isUnmapped) then s.answer .range []
    else if ws.any (fun f => !(lookup s.regions f.addr).forcible) then s.answer .cls []
    else if Config.forceCapacity < forces.length then s.answer .full []
    else if s.freePlaces < ops.length then s.answer .queueFull []
    else ({ s with forces := forces }.enqueue ops).answer .ok []

/-- FORCE (R50 to R52, R178). -/
def execForce (c : RxChar) (s : State) : Result := s.onRequest c 0x20 doForce

/-- RELEASE ALL (R56, R179). -/
def execReleaseAll (c : RxChar) (s : State) : Result :=
  s.onRequest c 0x21 (withoutParams (fun s => s.releaseAll.answer .ok []))

/-- FORCE LIST (R57, R180). -/
def execForceList (c : RxChar) (s : State) : Result :=
  s.onRequest c 0x22 (withoutParams (fun s => s.answer .ok (forceListData s.forces)))

end Sys2Proof.Machine
end

