-- ==== Sys2Proof/Machine/WatchRequests.lean ====
section
/-! DEFINITION. The watch and snapshot requests (section 10.5 and files 06, 07). -/

namespace Sys2Proof.Machine

/-- Some element of some item lies above FFFFFH or is unmapped (R94). -/
def itemsOutOfRange (regions : List Region) (items : List WatchItem) : Bool :=
  items.any (fun it => it.addresses.any (outOfRange regions))

/-- The list would exceed its items or its elements (R94). -/
def itemsExceed (items : List WatchItem) : Bool :=
  decide (Config.itemCapacity < items.length)
    || decide (Config.elementCapacity < (items.map WatchItem.elementCount).sum)

/-- A snapshot bank is FILLING (R100). -/
def State.anyFilling (s : State) : Bool := s.bankA.state = .filling || s.bankB.state = .filling

/-- The list with new items: the elements are their expansion and the generation advances; an empty list is OFF (R92, R96,
R98). -/
def Watch.replace (w : Watch) (items : List WatchItem) : Watch :=
  ⟨items, expandItems items, w.generation + 1, if items = [] then .off else w.mode⟩

/-- The checks after FORMAT of WATCH DEFINE and WATCH APPEND on the items of the request, and the change to the list as it
would stand (R94, R97, R99, R100). -/
def State.changeWatch (s : State) (new list : List WatchItem) : State :=
  if itemsOutOfRange s.regions new then s.answer .range []
  else if s.anyFilling then s.answer .busy []
  else if itemsExceed list then s.answer .full []
  else
    let w := s.watch.replace list
    { s with watch := w }.answer .ok w.summary

/-- WATCH DEFINE on its parameters (R97, R98, R181). -/
def doWatchDefine (params : List Byte) (s : State) : State :=
  match parseItems params with
  | none => s.answer .format []
  | some items => s.changeWatch items items

/-- WATCH DEFINE (R97, R98, R181). -/
def execWatchDefine (c : RxChar) (s : State) : Result := s.onRequest c 0x30 doWatchDefine

/-- WATCH APPEND on its parameters (R99, R181). -/
def doWatchAppend (params : List Byte) (s : State) : State :=
  match parseItems params with
  | none => s.answer .format []
  | some [] => s.answer .format []
  | some items => s.changeWatch items (s.watch.items ++ items)

/-- WATCH APPEND (R99, R181). -/
def execWatchAppend (c : RxChar) (s : State) : Result := s.onRequest c 0x31 doWatchAppend

/-- WATCH LIST (R105, R182). -/
def execWatchList (c : RxChar) (s : State) : Result :=
  s.onRequest c 0x32 (withoutParams (fun s => s.answer .ok s.watch.listData))

/-- WATCH ARM on its parameters (R102, R183). -/
def doWatchArm (params : List Byte) (s : State) : State :=
  match parseArm params with
  | none => s.answer .format []
  | some m =>
    if s.watch.items = [] then s.answer .conflict []
    else { s with watch := { s.watch with mode := m } }.answer .ok []

/-- WATCH ARM (R102, R183). -/
def execWatchArm (c : RxChar) (s : State) : Result := s.onRequest c 0x33 doWatchArm

/-- WATCH STOP (R103, R183). -/
def execWatchStop (c : RxChar) (s : State) : Result :=
  s.onRequest c 0x34 (withoutParams (fun s => { s with watch := { s.watch with mode := .off } }.answer .ok []))

/-- The bank SNAP READ selects (R122): a SENT bank, else the READY bank, of two the first in fill order. -/
def State.selectBank (s : State) : Option BankId :=
  if s.bankA.state = .sent then some .a
  else if s.bankB.state = .sent then some .b
  else if s.bankA.state = .ready && s.bankB.state = .ready then some (if s.bankA.second then .b else .a)
  else if s.bankA.state = .ready then some .a
  else if s.bankB.state = .ready then some .b
  else none

/-- The transfer of a bank begins (R122, R126): it is SENDING and its readout is the reply. -/
def State.sendBank (s : State) (i : BankId) (map : Bool) : State :=
  let t := s.setBank i { s.bank i with state := .sending }
  { t with exch := { t.exch with bank := some i } }.answer .ok ((s.bank i).readout map)

/-- SNAP READ on its parameters (R122, R184). -/
def doSnapRead (params : List Byte) (s : State) : State :=
  match parseFlag params with
  | none => s.answer .format []
  | some map =>
    match s.selectBank with
    | none => s.answer .noneReady []
    | some i => s.sendBank i map

/-- SNAP READ (R122, R184). -/
def execSnapRead (c : RxChar) (s : State) : Result := s.onRequest c 0x38 doSnapRead

/-- SNAP ACK without parameters (R125). -/
def State.acknowledge (s : State) : State :=
  if s.bankA.state = .sent then (s.emptyBank .a).answer .ok []
  else if s.bankB.state = .sent then (s.emptyBank .b).answer .ok []
  else s.answer .noneReady []

/-- SNAP ACK (R125, R184). -/
def execSnapAck (c : RxChar) (s : State) : Result := s.onRequest c 0x39 (withoutParams State.acknowledge)

end Sys2Proof.Machine
end

