-- ==== Sys2Proof/Machine/ConfigRequests.lean ====
section
/-! DEFINITION. The supervision, region, log and alert requests (section 10.5 and files 02, 08, 11). -/

namespace Sys2Proof.Machine

/-- A SCAN CONFIG that passes: the configuration is replaced and the supervisor restarts (R142). -/
def Supervisor.configure (v : Supervisor) (m : Option Addr) (limit : BitVec 16) (x : StallAction) (ctlrun : Bool) :
    Supervisor :=
  let w := { v with marker := m, limit := limit, action := x, elapsed := none }
  { w with state := if w.possible ctlrun then .waitingFirst else .inactive }

/-- A marker address that is none, or lies where R134 lets it. -/
def markerFits (regions : List Region) (m : Option Addr) : Bool :=
  match m with
  | none => true
  | some a => (lookup regions a).markerAllowed

/-- SCAN CONFIG on its parameters (R142, R185). -/
def doScanConfig (params : List Byte) (s : State) : State :=
  match parseScanConfig params with
  | none => s.answer .format []
  | some (m, limit, x) =>
    if s.lease.level ≠ .service then s.answer .level []
    else if !markerFits s.regions m then s.answer .conflict []
    else { s with sup := s.sup.configure m limit x s.ctlrun }.answer .ok []

/-- SCAN CONFIG (R142, R185). -/
def execScanConfig (c : RxChar) (s : State) : Result := s.onRequest c 0x40 doScanConfig

/-- SCAN STATS on its parameters (R143, R185). -/
def doScanStats (params : List Byte) (s : State) : State :=
  match parseFlag params with
  | none => s.answer .format []
  | some clear =>
    let v := if clear then { s.sup with minPeriod := none, maxPeriod := none } else s.sup
    { s with sup := v }.answer .ok s.sup.statsData

/-- SCAN STATS (R143, R185). -/
def execScanStats (c : RxChar) (s : State) : Result := s.onRequest c 0x41 doScanStats

/-- The table as it would stand conflicts with the force table, the Watch List or the marker (R35). -/
def State.regionConflict (s : State) (regions : List Region) : Bool :=
  s.forces ≠ [] || s.watch.elements.any (fun e => (lookup regions e.addr).isUnmapped)
    || !markerFits regions s.sup.marker

/-- REGION SET on its parameters (R35, R36, R186). -/
def doRegionSet (params : List Byte) (s : State) : State :=
  match parseRegion params with
  | none => s.answer .format []
  | some (i, r) =>
    let regions := s.regions.set i r
    if s.lease.level ≠ .service then s.answer .level []
    else if s.anyFilling then s.answer .busy []
    else if s.regionConflict regions then s.answer .conflict []
    else { s with regions := regions }.answer .ok []

/-- REGION SET (R35, R36, R186). -/
def execRegionSet (c : RxChar) (s : State) : Result := s.onRequest c 0x50 doRegionSet

/-- REGION LIST (R37, R186). -/
def execRegionList (c : RxChar) (s : State) : Result :=
  s.onRequest c 0x51 (withoutParams (fun s => s.answer .ok (encodeRegions 0 s.regions)))

/-- LOG READ (R32, R187): the records and the dropped count are handed over and the log is empty. -/
def execLogRead (c : RxChar) (s : State) : Result :=
  s.onRequest c 0x58 (withoutParams (fun s => { s with guardLog := ⟨[], 0⟩ }.answer .ok s.guardLog.data))

/-- ALERT CLEAR on its parameters (R188, R201). -/
def doAlertClear (params : List Byte) (s : State) : State :=
  match parseMask params with
  | none => s.answer .format []
  | some m => { s with latched := s.latched.without m }.answer .ok []

/-- ALERT CLEAR (R188, R201). -/
def execAlertClear (c : RxChar) (s : State) : Result := s.onRequest c 0x60 doAlertClear

/-- ALERT ENABLE on its parameters (R188, R202). -/
def doAlertEnable (params : List Byte) (s : State) : State :=
  match parseMask params with
  | none => s.answer .format []
  | some m => { s with enabled := m }.answer .ok []

/-- ALERT ENABLE (R188, R202). -/
def execAlertEnable (c : RxChar) (s : State) : Result := s.onRequest c 0x61 doAlertEnable

end Sys2Proof.Machine
end

