-- ==== Sys2Proof/Machine/LinkEvents.lean ====
section
/-! DEFINITION. The commands of the maintenance link that are not requests to this node: characters, discards, other frames,
CONTINUE and ABORT, break, and the part's own frames (file 09). -/

namespace Sys2Proof.Machine

/-- FRAME_START (R150): an unflagged C3H in HUNT begins a frame; every other character in HUNT is discarded. An IDLE
exchange enters RECEIVING. -/
def execFrameStart (c : RxChar) (s : State) : Result :=
  .next (if s.listening && s.rx.state = .hunt && c.data = Config.startByte && !c.flagged then
      let t := { s with rx := { s.rx with state := .assembling ⟨[], false, s.exch.state.holdsTurn⟩ } }
      if s.exch.state = .idle then t.enter .receiving else t
    else s)

/-- A character joins the frame under assembly (R150). -/
def RxFrame.push (f : RxFrame) (c : RxChar) : RxFrame :=
  { f with chars := f.chars ++ [c.data], flagged := f.flagged || c.flagged }

/-- The character is the length of the frame and is above 64 (R151). -/
def RxFrame.overlong (f : RxFrame) (c : RxChar) : Bool :=
  f.chars.length = 2 && decide (Config.payloadLimit < c.data.toNat)

/-- FRAME_CHARACTER_TAKEN (R150): a node, kind, length of at most 64 or payload character joins the frame. -/
def execFrameCharacterTaken (c : RxChar) (s : State) : Result :=
  match s.rx.state with
  | .hunt => .next s
  | .assembling f =>
    .next (if s.listening && f.fields.isNone && !f.overlong c then
        { s with rx := { s.rx with state := .assembling (f.push c) } }
      else s)

/-- OVERLONG_LENGTH (R151): a length above 64 discards the frame at once. -/
def execOverlongLength (c : RxChar) (s : State) : Result :=
  match s.rx.state with
  | .hunt => .next s
  | .assembling f => .next (if s.listening && f.overlong c then s.discardFrame else s)

/-- INTER_BYTE_TIMEOUT (R151): more than 4 character times pass between characters of a frame. -/
def execInterByteTimeout (s : State) : Result :=
  match s.rx.state with
  | .hunt => .next s
  | .assembling _ => .next (if s.listening then s.discardFrame else s)

/-- TURN_VIOLATION_AT_FINAL_BYTE (R152): a frame begun while the part held the turn reaches its final byte. -/
def execTurnViolationAtFinalByte (c : RxChar) (s : State) : Result :=
  .next (if s.finalByte c = some .violation then s.discardFrame else s)

/-- BAD_FRAME (R151): a frame completes with an error, a failed check or an unknown kind. -/
def execBadFrame (c : RxChar) (s : State) : Result :=
  .next (if s.finalByte c = some .bad then s.discardFrame else s)

/-- IGNORED_FRAME (R153): a valid REPLY or PART, or a CONTINUE or ABORT to another node. -/
def execIgnoredFrame (c : RxChar) (s : State) : Result :=
  .next (if s.finalByte c = some .ignored then s.endFrame else s)

/-- REQUEST_OTHER_NODE (R160): ignored, but it ends this node's transfer in AWAIT_CONTINUE. -/
def execRequestOtherNode (c : RxChar) (s : State) : Result :=
  .next (if s.finalByte c = some .requestOther then s.endFrame.endTransfer else s)

/-- BROADCAST_REQUEST (R71, R157): it ends a transfer in AWAIT_CONTINUE and is acted on as RELEASE ALL or LEVEL VIEW alone,
without a reply. -/
def execBroadcastRequest (c : RxChar) (s : State) : Result :=
  match s.finalByte c with
  | some (.broadcast payload) => .next (s.endFrame.endTransfer.actBroadcast payload)
  | _ => .next s

/-- CONTINUE (R159, R162, R71): to this node it renews the lease and is served in AWAIT_CONTINUE; to node 15 it is
ignored. -/
def execContinueFrame (c : RxChar) (s : State) : Result :=
  match s.finalByte c with
  | some (.cont true segment) =>
    let t := s.endFrame.renewLease
    .next (if s.exch.state = .awaitContinue then t.serveContinue segment else t)
  | some (.cont false _) => .next s.endFrame
  | _ => .next s

/-- ABORT (R160, R162, R71): it ends a transfer in AWAIT_CONTINUE; to this node it renews the lease. -/
def execAbortFrame (c : RxChar) (s : State) : Result :=
  match s.finalByte c with
  | some (.abort own) => .next (if own then s.endFrame.endTransfer.renewLease else s.endFrame.endTransfer)
  | _ => .next s

/-- BREAK (R86, R148, R163): a frame under assembly is dropped, the receiver waits for mark, and the exchange ends. -/
def execBreakLine (s : State) : Result :=
  .next (if s.sysrstn && !s.rx.awaitMark then
      let t := { s with rx := ⟨.hunt, true⟩ }
      match s.exch.state with
      | .idle => t
      | .receiving => t.enter .idle
      | .executing => t.abandonRecord.endExchange .ready
      | .sending | .awaitContinue => t.endExchange .ready
    else s)

/-- LRX_RETURNS_TO_MARK (R148, R165): the receiver hunts again. -/
def execLrxReturnsToMark (s : State) : Result := .next { s with rx := { s.rx with awaitMark := false } }

/-- FRAME_TRANSMIT_START (R146, R152, R156): LDE rises and the frame is on LTX; a frame under assembly that is a turn
violation is discarded. -/
def execFrameTransmitStart (s : State) : Result :=
  .next (if s.exch.state = .sending && !s.exch.lde then
      let t : State :=
        match s.rx.state with
        | .assembling f => if f.violation then s.discardFrame else s
        | .hunt => s
      { t with exch := { t.exch with lde := true, ltx := s.outgoing } }
    else s)

/-- FRAME_SENT (R123, R156): LDE falls. After the final REPLY the exchange ends and a bank under transfer is SENT; after the
FORMAT reply of R159 it ends; after a PART it is AWAIT_CONTINUE. -/
def execFrameSent (s : State) : Result :=
  match s.exch.send with
  | none => .next s
  | some .formatReply => .next (if s.exch.state = .sending && s.exch.lde then s.endExchange .ready else s)
  | some (.segment k) =>
    .next (if s.exch.state = .sending && s.exch.lde then
        if s.exch.isLast k then s.endExchange .sent
        else
          { s with exch := { s.exch with lastSent := some (k % 16), contTime := some 0, send := none, lde := false,
                                         ltx := none } }.enter .awaitContinue
      else s)

end Sys2Proof.Machine
end

