-- ==== Sys2Proof/Machine/Path.lean ====
section
/-! DEFINITION. The commands of the access path: the controller's bus, the memory port's completions and the reservation
(files 01, 05, 07). -/

namespace Sys2Proof.Machine

/-- ACCESS_TAKE (R1, R4, R6 to R10, R29): the controller's pins come to these levels. An idle port takes the access they
form, and a forwarded one claims the Memory Port. -/
def execAccessTake (pins : BusPins) (s : State) : Result := .next (s.moveBus pins)

/-- CYCLE_END (R2, R3): the controller's pins come to these levels. Where they end the cycle, DONE returns to IDLE, and an
access in progress goes on. -/
def execCycleEnd (pins : BusPins) (s : State) : Result := .next (s.moveBus pins)

/-- CONTROLLER_READ_DATA_RETURN (R6): the word is overlaid with the table as it stands, the grant ends, and the access
completes. -/
def execControllerReadDataReturn (s : State) : Result :=
  match s.arb.grant, s.mport, s.port with
  | some ⟨.c, .read⟩, .reading a, .active acc =>
    .next (s.endGrant.afterControllerGrant.completeAccess (some (overlay s.forces acc.cls a (s.mem.readWord a))))
  | _, _, _ => .next s

/-- RESERVATION_EXPIRY (R17): the reservation ends and a grant decision is made. -/
def execReservationExpiry (s : State) : Result :=
  match s.arb.reservation with
  | some _ => .next { s with arb := { s.arb with reservation := none } }.decideGrant
  | none => .next s

/-- CONTROLLER_WRITE_REACHES_MEMORY (R10, R12): the write is in memory, the marker check is made, the grant ends and the
access completes (log entry 9). -/
def execControllerWriteReachesMemory (s : State) : Result :=
  match s.arb.grant, s.mport, s.port with
  | some ⟨.c, .write⟩, .writing a d lanes, .active acc =>
    let t := { s with mem := s.mem.writeWord a d lanes }
    .next ((t.markerCheck acc.addr).endGrant.afterControllerGrant.completeAccess none)
  | _, _, _ => .next s

/-- CAPTURE_READ_RETURN (R11, R117): the elements PENDING at the address are captured, and the write begins under the same
grant. -/
def execCaptureReadReturn (s : State) : Result :=
  match s.arb.grant, s.mport with
  | some ⟨h, .captureRead d lanes⟩, .reading a =>
    let t := s.capture a (s.mem.readWord a)
    .next { t with arb := { t.arb with grant := some ⟨h, .write⟩ }, mport := .writing a d lanes }
  | _, _ => .next s

/-- FILL_READ_RETURN (R114): the elements PENDING at the address are captured and the F grant ends; F is waiting again while
an element is PENDING (R14). -/
def execFillReadReturn (s : State) : Result :=
  match s.arb.grant, s.mport with
  | some ⟨.f, .read⟩, .reading a =>
    let t := (s.capture a (s.mem.readWord a)).endGrant
    .next { t with arb := { t.arb with waitF := t.lowestPending.isSome } }.decideGrant
  | _, _ => .next s

/-- READ_OPERATION_DATA_RETURN (R77, R80): the word is overlaid with the table as it stands, handed to its position, and the
operation retires. -/
def execReadOperationDataReturn (s : State) : Result :=
  match s.arb.grant, s.mport, s.ops with
  | some ⟨.q, .read⟩, .reading a, o :: _ =>
    match o.kind with
    | .read _ => .next (s.retireHead (overlay s.forces o.held a (s.mem.readWord a)))
    | .write _ | .modify _ _ => .next s
  | _, _, _ => .next s

/-- WRITE_OPERATION_REACHES_MEMORY (R78, R80): the write is in memory and the operation retires. -/
def execWriteOperationReachesMemory (s : State) : Result :=
  match s.arb.grant, s.mport, s.ops with
  | some ⟨.q, .write⟩, .writing a d lanes, o :: _ =>
    match o.kind with
    | .write _ => .next ({ s with mem := s.mem.writeWord a d lanes }.retireHead 0)
    | .read _ | .modify _ _ => .next s
  | _, _, _ => .next s

/-- The word a MODIFY writes, before substitution (R46): its set mask made 1 and its clear mask made 0. -/
def modifyWord (w set clr : Word) : Word := (w ||| set) &&& ~~~clr

/-- MODIFY_READ_COMPLETE (R46, R79): the read serves as capture read, the word is formed from it as memory holds it, by the
operation's masks and then substitution, and the write begins under the same grant. -/
def execModifyReadComplete (s : State) : Result :=
  match s.arb.grant, s.mport, s.ops with
  | some ⟨.q, .read⟩, .reading a, o :: _ =>
    match o.kind with
    | .modify st cl =>
      let w := s.mem.readWord a
      let t := s.capture a w
      let d := substitute s.forces o.held a (modifyWord w st cl) Lanes.both
      .next { t with arb := { t.arb with grant := some ⟨.q, .write⟩ }, mport := .writing a d Lanes.both }
    | .read _ | .write _ => .next s
  | _, _, _ => .next s

/-- MODIFY_WRITE_REACHES_MEMORY (R79, R80): the write is in memory and the operation retires. -/
def execModifyWriteReachesMemory (s : State) : Result :=
  match s.arb.grant, s.mport, s.ops with
  | some ⟨.q, .write⟩, .writing a d lanes, o :: _ =>
    match o.kind with
    | .modify _ _ => .next ({ s with mem := s.mem.writeWord a d lanes }.retireHead 0)
    | .read _ | .write _ => .next s
  | _, _, _ => .next s

end Sys2Proof.Machine
end

