-- ==== Sys2Proof/Machine/Supervision.lean ====
section
/-! DEFINITION. The commands of reset, pins and time: SYSRSTN, CTLRUN, the expiries and the Time Base (files 01, 04, 08). -/

namespace Sys2Proof.Machine

/-- SYSRSTN_FALL (R19, R20, R89, R130, R165): a grant in progress is carried to its end, and then every block takes its
reset values (log entry 12). -/
def execSysrstnFall (s : State) : Result := .next (if s.sysrstn then s.carryGrant.resetBlocks else s)

/-- SYSRSTN_RISE (R20, R147, R165): the straps are sampled, the receiver waits for mark where LRX is at space, and a cycle
on the bus is taken. -/
def execSysrstnRise (node : BitVec 4) (rate : BitVec 2) (lrxAtSpace : Bool) (s : State) : Result :=
  .next (if s.sysrstn then s
    else { s with sysrstn := true, strapNode := node, strapRate := rate, rx := ⟨.hunt, lrxAtSpace⟩ }.tryTake)

/-- CTLRUN_RISE (R136): the supervisor moves from INACTIVE to WAITING_FIRST when supervision is possible. While SYSRSTN is
low only the pin moves (R133). -/
def execCtlrunRise (s : State) : Result :=
  let t := { s with ctlrun := true }
  .next (if s.sysrstn && !s.ctlrun && s.sup.state = .inactive && s.sup.possible true then
      { t with sup := { s.sup with state := .waitingFirst } }
    else t)

/-- CTLRUN_FALL (R136): the supervisor enters INACTIVE with the elapsed time absent. -/
def execCtlrunFall (s : State) : Result :=
  let t := { s with ctlrun := false }
  .next (if s.sysrstn && s.ctlrun then { t with sup := { s.sup with state := .inactive, elapsed := none } } else t)

/-- SCAN_LIMIT_EXPIRY (R139, R140): in TIMING with the elapsed time greater than the limit, STALLED is entered. -/
def execScanLimitExpiry (s : State) : Result := .next (if s.sup.due then s.enterStall else s)

/-- LEASE_EXPIRY (R67, R68): a RUNNING lease at 0 expires. -/
def execLeaseExpiry (s : State) : Result := .next (if s.leaseDue then s.expireLease else s)

/-- CONTINUATION_LIMIT (R161): a transfer in AWAIT_CONTINUE for 1 s ends. -/
def execContinuationLimit (s : State) : Result := .next (if s.continuationDue then s.endTransfer else s)

/-- Expiries that are due are taken before time goes on (R67, R139, R161, log entry 11). -/
def State.takeExpiries (s : State) : State :=
  let s := if s.leaseDue then s.expireLease else s
  let s := if s.sup.due then s.enterStall else s
  if s.continuationDue then s.endTransfer else s

/-- One µs of the Time Base (R145): the count, a RUNNING lease's remaining time, the elapsed time and the continuation time
in AWAIT_CONTINUE (R59, R133, R161). -/
def State.countMicro (s : State) : State :=
  { s with
    time := s.time + 1,
    lease := if s.lease.cond = .running then { s.lease with remaining := s.lease.remaining - 1 } else s.lease,
    sup := { s.sup with elapsed := s.sup.elapsed.map countElapsed },
    exch := if s.exch.state = .awaitContinue then { s.exch with contTime := s.exch.contTime.map (· + 1) } else s.exch }

/-- TIME_BASE_TICK (R145): while SYSRSTN is high the count advances by one µs; while it is low it holds 0. -/
def execTimeBaseTick (s : State) : Result := .next (if s.sysrstn then s.takeExpiries.countMicro else s)

end Sys2Proof.Machine
end

