-- ==== Sys2Proof/Machine/Dispatch.lean ====
section
/-! DEFINITION. The meaning of every command: one arm per row of spec/opcode_table.json. -/

namespace Sys2Proof.Machine

def exec (i : Instr) (s : State) : Host.Outcome State Fault Refusal :=
  match i with
  | .accessTake pins => Sys2Proof.Machine.execAccessTake pins s
  | .cycleEnd pins => Sys2Proof.Machine.execCycleEnd pins s
  | .controllerReadDataReturn => Sys2Proof.Machine.execControllerReadDataReturn s
  | .reservationExpiry => Sys2Proof.Machine.execReservationExpiry s
  | .controllerWriteReachesMemory => Sys2Proof.Machine.execControllerWriteReachesMemory s
  | .captureReadReturn => Sys2Proof.Machine.execCaptureReadReturn s
  | .fillReadReturn => Sys2Proof.Machine.execFillReadReturn s
  | .readOperationDataReturn => Sys2Proof.Machine.execReadOperationDataReturn s
  | .writeOperationReachesMemory => Sys2Proof.Machine.execWriteOperationReachesMemory s
  | .modifyReadComplete => Sys2Proof.Machine.execModifyReadComplete s
  | .modifyWriteReachesMemory => Sys2Proof.Machine.execModifyWriteReachesMemory s
  | .sysrstnFall => Sys2Proof.Machine.execSysrstnFall s
  | .sysrstnRise node rate lrxAtSpace => Sys2Proof.Machine.execSysrstnRise node rate lrxAtSpace s
  | .ctlrunRise => Sys2Proof.Machine.execCtlrunRise s
  | .ctlrunFall => Sys2Proof.Machine.execCtlrunFall s
  | .scanLimitExpiry => Sys2Proof.Machine.execScanLimitExpiry s
  | .leaseExpiry => Sys2Proof.Machine.execLeaseExpiry s
  | .frameStart c => Sys2Proof.Machine.execFrameStart c s
  | .overlongLength c => Sys2Proof.Machine.execOverlongLength c s
  | .interByteTimeout => Sys2Proof.Machine.execInterByteTimeout s
  | .badFrame c => Sys2Proof.Machine.execBadFrame c s
  | .ignoredFrame c => Sys2Proof.Machine.execIgnoredFrame c s
  | .requestOtherNode c => Sys2Proof.Machine.execRequestOtherNode c s
  | .broadcastRequest c => Sys2Proof.Machine.execBroadcastRequest c s
  | .continueFrame c => Sys2Proof.Machine.execContinueFrame c s
  | .abortFrame c => Sys2Proof.Machine.execAbortFrame c s
  | .continuationLimit => Sys2Proof.Machine.execContinuationLimit s
  | .breakLine => Sys2Proof.Machine.execBreakLine s
  | .frameTransmitStart => Sys2Proof.Machine.execFrameTransmitStart s
  | .frameSent => Sys2Proof.Machine.execFrameSent s
  | .emptyRequest c => Sys2Proof.Machine.execEmptyRequest c s
  | .unknownRequest c => Sys2Proof.Machine.execUnknownRequest c s
  | .probe c => Sys2Proof.Machine.execProbe c s
  | .identify c => Sys2Proof.Machine.execIdentify c s
  | .status c => Sys2Proof.Machine.execStatus c s
  | .level c => Sys2Proof.Machine.execLevel c s
  | .sessionClear c => Sys2Proof.Machine.execSessionClear c s
  | .peek c => Sys2Proof.Machine.execPeek c s
  | .poke c => Sys2Proof.Machine.execPoke c s
  | .sync c => Sys2Proof.Machine.execSync c s
  | .force c => Sys2Proof.Machine.execForce c s
  | .releaseAll c => Sys2Proof.Machine.execReleaseAll c s
  | .forceList c => Sys2Proof.Machine.execForceList c s
  | .watchDefine c => Sys2Proof.Machine.execWatchDefine c s
  | .watchAppend c => Sys2Proof.Machine.execWatchAppend c s
  | .watchList c => Sys2Proof.Machine.execWatchList c s
  | .watchArm c => Sys2Proof.Machine.execWatchArm c s
  | .watchStop c => Sys2Proof.Machine.execWatchStop c s
  | .snapRead c => Sys2Proof.Machine.execSnapRead c s
  | .snapAck c => Sys2Proof.Machine.execSnapAck c s
  | .scanConfig c => Sys2Proof.Machine.execScanConfig c s
  | .scanStats c => Sys2Proof.Machine.execScanStats c s
  | .regionSet c => Sys2Proof.Machine.execRegionSet c s
  | .regionList c => Sys2Proof.Machine.execRegionList c s
  | .logRead c => Sys2Proof.Machine.execLogRead c s
  | .alertClear c => Sys2Proof.Machine.execAlertClear c s
  | .alertEnable c => Sys2Proof.Machine.execAlertEnable c s
  | .timeBaseTick => Sys2Proof.Machine.execTimeBaseTick s
  | .lrxReturnsToMark => Sys2Proof.Machine.execLrxReturnsToMark s
  | .frameCharacterTaken c => Sys2Proof.Machine.execFrameCharacterTaken c s
  | .turnViolationAtFinalByte c => Sys2Proof.Machine.execTurnViolationAtFinalByte c s

end Sys2Proof.Machine
end

