-- ==== Sys2Proof/Machine/Pins.lean ====
section
/-! DEFINITION. What the part drives on its pins, as functions of the state (R1, R2, R5, R20, R146, R200). A level is true
when high; none is high impedance. -/

namespace Sys2Proof.Machine

/-- WAITN (R1, R2, R20): low while an access is in progress, and while SYSRSTN is low whenever CSN is low with a lane enable
and a strobe. -/
def State.waitn (s : State) : Bool :=
  if s.sysrstn then (match s.port with | .active _ => false | _ => true) else !s.bus.takes

/-- D15..D8 as the part drives them: in DONE, for a read with the upper lane enabled at the take, while OEN is low (R2). -/
def State.dUpper (s : State) : Option Byte :=
  match s.port with
  | .done acc (some w) => if acc.lanes.upper && !s.bus.oen then some (w.extractLsb' 8 8) else none
  | _ => none

/-- D7..D0 as the part drives them (R2). -/
def State.dLower (s : State) : Option Byte :=
  match s.port with
  | .done acc (some w) => if acc.lanes.lower && !s.bus.oen then some (w.extractLsb' 0 8) else none
  | _ => none

/-- The memory-side pins (R5). -/
structure MemPins where
  /-- MCSN. -/
  mcsn : Bool
  /-- MOEN. -/
  moen : Bool
  /-- MWEN. -/
  mwen : Bool
  /-- MUBN; not stated in IDLE. -/
  mubn : Option Bool
  /-- MLBN; not stated in IDLE. -/
  mlbn : Option Bool
  /-- MA19..MA0; not stated in IDLE. -/
  addr : Option Addr
  /-- MD15..MD0 as the part drives them. -/
  data : Option Word
  deriving DecidableEq, Repr

/-- What the Memory Port drives (R5). DESIGN CHOICE for the MD bits of a lane that a write does not enable, which the spec
leaves open: a controller write drives 00H there (log entry 27). DEDUCED: MWEN is high in a read and MOEN in a write. -/
def State.memPins (s : State) : MemPins :=
  match s.mport with
  | .idle => ⟨true, true, true, none, none, none, none⟩
  | .reading a => ⟨false, false, true, some false, some false, some a, none⟩
  | .writing a d lanes => ⟨false, true, false, some (!lanes.upper), some (!lanes.lower), some a, some d⟩

/-- ALERTN as the part leaves it: some false when it drives the line low, none at high impedance (R200). -/
def State.alertn (s : State) : Option Bool := if s.alertnLow then some false else none

/-- LTX carries characters: LDE is high; otherwise it is at mark (R146). -/
def State.ltxAtMark (s : State) : Bool := !s.exch.lde

end Sys2Proof.Machine
end

