-- ==== Sys2Proof/WellFormed.lean ====
section
/-! DEFINITION. Which commands name an event of the spec at all, whatever the state. A command that fails this check still
has a meaning (the pins move, or the character is hunted through or does not end a frame): the check is for writers of
command sequences. -/

namespace Sys2Proof

/-- Whether a command names an event of the spec: the pins of ACCESS_TAKE meet the conditions of R1 and those of CYCLE_END
do not, the character of FRAME_START is an unflagged C3H (R150), that of OVERLONG_LENGTH is above 64 (R151), and the
final character of a frame that is handed on is unflagged (R151). -/
def Instr.wellFormed : Instr → Bool
  | .accessTake p => p.takes
  | .cycleEnd p => !p.takes
  | .frameStart c => c.data = Config.startByte && !c.flagged
  | .overlongLength c => decide (c.data.toNat > Config.payloadLimit)
  | .ignoredFrame c | .requestOtherNode c | .broadcastRequest c | .continueFrame c | .abortFrame c
  | .emptyRequest c | .unknownRequest c | .probe c | .identify c | .status c | .level c | .sessionClear c
  | .peek c | .poke c | .sync c | .force c | .releaseAll c | .forceList c | .watchDefine c | .watchAppend c
  | .watchList c | .watchArm c | .watchStop c | .snapRead c | .snapAck c | .scanConfig c | .scanStats c
  | .regionSet c | .regionList c | .logRead c | .alertClear c | .alertEnable c => !c.flagged
  | .controllerReadDataReturn | .reservationExpiry | .controllerWriteReachesMemory | .captureReadReturn
  | .fillReadReturn | .readOperationDataReturn | .writeOperationReachesMemory | .modifyReadComplete
  | .modifyWriteReachesMemory | .sysrstnFall | .sysrstnRise _ _ _ | .ctlrunRise | .ctlrunFall | .scanLimitExpiry
  | .leaseExpiry | .interByteTimeout | .badFrame _ | .continuationLimit | .breakLine | .frameTransmitStart
  | .frameSent | .timeBaseTick | .lrxReturnsToMark | .frameCharacterTaken _ | .turnViolationAtFinalByte _ => true

end Sys2Proof
end

