-- ==== Sys2Proof/Safety.lean ====
section
/-! DEFINITION. What holds in every state a run reaches: the relations the spec states between the pieces of state, block by
block, and the vocabulary of the statements about the commands. -/

namespace Sys2Proof.Machine

/-! ## The tables -/

/-- The Region Table has eight records, each in the range of its fields (R21). -/
abbrev State.RegionsOk (s : State) : Prop := s.regions.length = 8 ∧ ∀ r ∈ s.regions, r.valid = true

/-- The Guard Log holds at most 16 records, their disabled lanes 00H, and a dropped count of at most 255 (R30, R31). -/
abbrev State.GuardLogOk (s : State) : Prop :=
  s.guardLog.records.length ≤ 16 ∧ s.guardLog.dropped ≤ 255
    ∧ ∀ r ∈ s.guardLog.records, r.data &&& ~~~r.lanes.mask = 0 ∧ (r.lanes.upper || r.lanes.lower) = true

/-- The Force Table: at most 32 entries in ascending order of address, no two alike, each with a forced bit and none in both
masks (R39). -/
abbrev State.ForcesOk (s : State) : Prop :=
  s.forces.Pairwise (fun x y => x.addr < y.addr) ∧ s.forces.length ≤ 32
    ∧ ∀ e ∈ s.forces, (e.set ≠ 0 ∨ e.clr ≠ 0) ∧ e.set &&& e.clr = 0

/-- Every force entry names a word of a forcible class (R40). -/
abbrev State.ForcesPlaced (s : State) : Prop := ∀ e ∈ s.forces, (lookup s.regions e.addr).forcible = true

/-- The configured marker lies in an enabled region of class WORK or HOLD with the guard clear (R134). -/
abbrev State.MarkerPlaced (s : State) : Prop := ∀ a, s.sup.marker = some a → (lookup s.regions a).markerAllowed = true

/-- The Lease Timer (R59, R61, R65): at VIEW no lease and an empty force table; above it a granted duration, a remaining time
of at most that duration, and a condition that follows the exchange state. -/
def State.leaseOk (s : State) : Bool :=
  match s.lease.level with
  | .view => s.lease = Lease.view && s.forces = []
  | .tune | .service =>
    match s.lease.granted with
    | none => false
    | some d => 1 ≤ d && d ≤ 600 && s.lease.remaining ≤ d * 100000
        && s.lease.cond = (if s.exch.state.holdsTurn then LeaseCond.paused else LeaseCond.running)

/-! ## The Operation Queue -/

/-- The fields an operation may have (R74): its origin fixes its kind, and the masks of a MODIFY are disjoint. -/
def Operation.wf (o : Operation) : Bool :=
  match o.kind, o.origin with
  | .read i, .peek => i < 32
  | .write _, .poke => true
  | .modify st cl, .force => st &&& cl = 0
  | _, _ => false

/-- An operation behind the head: WAITING, and not yet looked up (R74, R75). -/
def Operation.behind (o : Operation) : Bool := o.wf && !o.active && o.cls.isNone && !o.dropped

/-- The Operation Queue (R74, R75, R76): at most 32 operations, the head looked up and not ABSENT, every other one WAITING. -/
def State.queueOk (s : State) : Bool :=
  s.ops.length ≤ 32 &&
  match s.ops with
  | [] => true
  | o :: rest => o.wf && o.cls.any (fun c => !c.isAbsent) && (!o.dropped || o.active) && rest.all Operation.behind

/-! ## The Watch List -/

/-- The field ranges of a watch item (R91). -/
def WatchItem.wf : WatchItem → Bool
  | .bit _ _ | .word _ | .pair _ => true
  | .block _ n st => 1 ≤ n && n ≤ 256 && 1 ≤ st && st ≤ 65535
  | .grid _ n st g gs => 1 ≤ n && n ≤ 256 && 1 ≤ st && st ≤ 65535 && 1 ≤ g && g ≤ 256 && 1 ≤ gs && gs ≤ 0xFFFFF

/-- The Watch List (R91, R92, R94, R101): items in their ranges, the elements their expansion, the capacities, every element
in an enabled region, and an empty list OFF. -/
abbrev State.WatchOk (s : State) : Prop :=
  s.watch.items.length ≤ 64 ∧ s.watch.elements.length ≤ 256 ∧ s.watch.elements = expandItems s.watch.items
    ∧ (∀ it ∈ s.watch.items, it.wf = true ∧ ∀ n ∈ it.addresses, n ≤ 0xFFFFF)
    ∧ (∀ e ∈ s.watch.elements, (lookup s.regions e.addr).isUnmapped = false)
    ∧ (s.watch.items = [] → s.watch.mode = .off)

/-! ## The Scan Supervisor -/

/-- The Scan Supervisor (R133, R136, R138): the elapsed time is present in TIMING and STALLED alone, supervision is possible
outside INACTIVE, and the minimum and maximum stand together in order. -/
def State.supervisorOk (s : State) : Bool :=
  (s.sup.elapsed.isSome = (s.sup.state = .timing || s.sup.state = .stalled))
    && (s.sup.state = .inactive || s.sup.possible s.ctlrun)
    && match s.sup.minPeriod, s.sup.maxPeriod with
      | none, none => true
      | some m, some x => m ≤ x && s.sup.lastPeriod.isSome
      | _, _ => false

/-! ## The link -/

/-- The items an exchange holds in a state (R154, R156, R159). -/
def Exchange.ok (e : Exchange) : Bool :=
  e.faults ≤ 255 &&
  match e.state with
  | .idle | .receiving => e = { Exchange.reset with state := e.state, faults := e.faults }
  | .executing =>
    e.code.isSome && e = { Exchange.reset with state := .executing, code := e.code, faults := e.faults }
  | .sending =>
    e.code.isSome && (e.lde = e.ltx.isSome) &&
    match e.send with
    | none => false
    | some .formatReply => e.reply.isNone && e.bank.isNone
    | some (.segment k) =>
      match e.reply, e.segCount with
      | some r, some n => 2 ≤ r.length && n = (r.length + 63) / 64 && k < n && e.nextIndex = some (k + 1)
      | _, _ => false
  | .awaitContinue =>
    e.code.isSome && !e.lde && e.ltx.isNone && e.send.isNone &&
    match e.reply, e.segCount, e.nextIndex, e.contTime with
    | some r, some n, some k, some t =>
      2 ≤ r.length && n = (r.length + 63) / 64 && 1 ≤ k && k < n && e.lastSent = some ((k - 1) % 16) && t ≤ 1000000
    | _, _, _, _ => false

/-- A frame under assembly lacks its final byte, its length is at most 64, and one begun while the part held the turn is
marked (R150, R151, R152). -/
def RxFrame.ok (f : RxFrame) : Bool :=
  match f.chars with
  | _ :: _ :: len :: payload => len.toNat ≤ 64 && payload.length ≤ len.toNat
  | _ => true

/-- The receiver and the exchange agree (R150, R152, R154): RECEIVING only while a frame is assembled, and a frame assembled
while the part holds the turn is a turn violation. -/
def State.receiverOk (s : State) : Bool :=
  match s.rx.state with
  | .hunt => s.exch.state ≠ .receiving
  | .assembling f => f.ok && !s.rx.awaitMark && !s.exch.lde && (!s.exch.state.holdsTurn || f.violation)

/-- The completion record is present exactly while a PEEK or SYNC is executing, which waits for the queue (R83, R154). -/
def State.recordOk (s : State) : Bool :=
  (s.completion.isSome = (s.exch.state = .executing)) && (s.completion.isNone || s.ops ≠ [])

/-- The Link Controller (R150 to R154, R83). -/
abbrev State.LinkOk (s : State) : Prop :=
  s.exch.ok = true ∧ s.receiverOk = true ∧ s.recordOk = true

/-! ## Snapshots -/

/-- The item layout of a bank counts out its elements (R93, R104): a count for each item, their sum the element count, and
one element to a BIT item. -/
def Bank.layoutOk (b : Bank) : Bool :=
  b.header.elementCount ≤ 256 && b.layout.length = b.header.itemCount
    && (b.layout.map (fun l => l.count)).sum = b.header.elementCount && b.layout.all (fun l => l.bit.isNone || l.count = 1)

/-- A bank holds its place (R104, R109, R120): 256 words and flags, its layout in order, and an EMPTY bank nothing else (log
entry 16). -/
def Bank.ok (b : Bank) : Bool :=
  b.words.length = 256 && b.flags.length = 256 && b.layoutOk && (b.state ≠ .empty || b = Bank.empty)

/-- The fill in flight (R108, R112, R119): its bank is FILLING, it has a state for each element, and one is PENDING. -/
def State.fillOk (s : State) : Bool :=
  match s.fill with
  | none => s.bankA.state ≠ .filling && s.bankB.state ≠ .filling
  | some f =>
    ((s.bank f.bank).state = .filling) && ((s.bank f.bank.other).state ≠ .filling)
      && (f.states.length = s.watch.elements.length) && f.states.any (· = .pending)
      && ((s.bank f.bank).header.elementCount = f.states.length)

/-- A bank the host holds: SENDING or SENT (R120). -/
def BankState.withHost : BankState → Bool
  | .sending | .sent => true
  | .empty | .filling | .ready => false

/-- The banks (R109, R120, R123): at most one SENDING or SENT, the SENDING one under transfer and no other, and a bank
second in fill order only beside one that is not EMPTY and is first; of two that are not EMPTY, one is second. -/
def State.banksOk (s : State) : Bool :=
  s.bankA.ok && s.bankB.ok && !(s.bankA.state.withHost && s.bankB.state.withHost)
    && ((s.bankA.state = .sending) = (s.exch.bank = some .a)) && ((s.bankB.state = .sending) = (s.exch.bank = some .b))
    && (!s.bankA.second || (s.bankB.state ≠ .empty && !s.bankB.second))
    && (!s.bankB.second || (s.bankA.state ≠ .empty && !s.bankA.second))
    && (s.bankA.state = .empty || s.bankB.state = .empty || (s.bankA.second ^^ s.bankB.second))
    && s.missed ≤ 255

/-! ## The access path -/

/-- The Memory Port serves the grant (R5, R18): IDLE without one, READING for a read or capture read, WRITING for a write. -/
def State.mportOk (s : State) : Bool :=
  match s.arb.grant, s.mport with
  | none, .idle => true
  | some ⟨_, .read⟩, .reading _ => true
  | some ⟨_, .captureRead _ _⟩, .reading _ => true
  | some ⟨_, .write⟩, .writing _ _ _ => true
  | _, _ => false

/-- The address at the Memory Port. -/
def MemPort.addr : MemPort → Option Addr
  | .idle => none
  | .reading a => some a
  | .writing a _ _ => some a

/-- A claimant holds the grant. -/
def Arbiter.holds (b : Arbiter) (h : Claimant) : Bool := b.grant.any (fun g => g.holder = h)

/-- The access in progress is waiting at the arbiter or holds the grant, at its own address and in its own direction (R6,
R8, R10, R14). -/
def State.portOk (s : State) : Bool :=
  match s.port with
  | .idle | .done _ _ => !s.arb.waitC && !s.arb.holds .c
  | .active acc =>
    acc.forwarded && (s.arb.waitC ^^ s.arb.holds .c) && (acc.data &&& ~~~acc.lanes.mask = 0)
      && (!s.arb.holds .c || (s.mport.addr = some acc.addr
        && match s.arb.grant with
          | some ⟨_, .read⟩ => !acc.write
          | some ⟨_, .captureRead _ l⟩ => acc.write && l = acc.lanes
          | some ⟨_, .write⟩ => acc.write && (match s.mport with | .writing _ _ l => l = acc.lanes | _ => false)
          | none => false))

/-- The head of the queue is ACTIVE exactly while Q holds the grant, at its own address and in a stage of its kind, and Q
waits exactly while the head is WAITING (R14, R74, R76). -/
def State.headOk (s : State) : Bool :=
  (s.arb.waitQ = headWaits s.ops) &&
  match s.ops with
  | [] => !s.arb.holds .q
  | o :: _ =>
    (o.active = s.arb.holds .q) && (!o.active || (s.mport.addr = some o.addr
      && match o.kind, s.arb.grant with
        | .read _, some ⟨_, .read⟩ => true
        | .write _, some ⟨_, .captureRead _ _⟩ => true
        | .write _, some ⟨_, .write⟩ => true
        | .modify _ _, some ⟨_, .read⟩ => true
        | .modify _ _, some ⟨_, .write⟩ => true
        | _, _ => false))

/-- F waits or holds the grant exactly while a fill is in flight; after a fill was abandoned its grant may run on, reading
alone (R14, R114, R129). -/
def State.fillClaimOk (s : State) : Bool :=
  (match s.fill with
    | none => !s.arb.waitF
    | some _ => s.arb.waitF ^^ s.arb.holds .f)
  && (!s.arb.holds .f || (match s.arb.grant with | some ⟨_, .read⟩ => true | _ => false))

/-- A write at memory leaves no PENDING element behind at its address (R11, R117). -/
def State.writeCaptured (s : State) : Bool :=
  match s.mport with
  | .writing a _ _ => !s.pendingAt a
  | .idle | .reading _ => true

/-- The Port Arbiter and what it arbitrates (R13 to R18): no claimant waits at a port that is free and unreserved. -/
abbrev State.PathOk (s : State) : Prop :=
  s.arb.count ≤ 4 ∧ s.mportOk = true ∧ s.portOk = true ∧ s.headOk = true ∧ s.fillClaimOk = true
    ∧ s.writeCaptured = true ∧ (s.arb.grant ≠ none → s.arb.reservation = none)
    ∧ (s.arb.free = true → s.arb.anyWaits = false)

/-! ## The whole machine -/

/-- While SYSRSTN is low every block holds its reset values (R19, R20, R145, R165, R198). -/
abbrev State.LowOk (s : State) : Prop := s.sysrstn = false → s = s.resetBlocks

/-- Every relation above, and the canonical form of memory. -/
structure State.Coherent (s : State) : Prop where
  /-- Memory is in canonical form. -/
  mem : s.mem.wf
  /-- R21. -/
  regions : s.RegionsOk
  /-- R30, R31. -/
  guardLog : s.GuardLogOk
  /-- R39. -/
  forces : s.ForcesOk
  /-- R40. -/
  placed : s.ForcesPlaced
  /-- R134. -/
  marker : s.MarkerPlaced
  /-- R59, R61, R65. -/
  lease : s.leaseOk = true
  /-- R74, R75. -/
  queue : s.queueOk = true
  /-- R91 to R94. -/
  watch : s.WatchOk
  /-- R133, R136. -/
  supervisor : s.supervisorOk = true
  /-- R150 to R154. -/
  link : s.LinkOk
  /-- R108. -/
  fill : s.fillOk = true
  /-- R120. -/
  banks : s.banksOk = true
  /-- R13 to R18. -/
  path : s.PathOk
  /-- R20. -/
  low : s.LowOk

/-! ## Words of the statements -/

/-- What the Controller Port holds of the access the pins form (R1, R4): a disabled lane's byte, and a read's data, are not
held and stand as 0 (log entry 15). -/
def heldAccess (regions : List Region) (p : BusPins) : Access :=
  { addr := p.addr, write := !p.wen, lanes := ⟨!p.ubn, !p.lbn⟩, cls := lookup regions p.addr, ended := false,
    data := (if !p.wen && !p.ubn then p.data.extractLsb' 8 8 else 0) ++ (if !p.wen && !p.lbn then p.data.extractLsb' 0 8 else 0) }

/-- The lane of a bit of the word is enabled (00_scope.md, Terms). -/
def Lanes.enables (l : Lanes) (bit : Nat) : Bool := if bit < 8 then l.lower else l.upper

/-- The value a force entry holds a bit at, none where it does not force it (R38). -/
def forcedAt (e : Option ForceEntry) (bit : Nat) : Option Bool :=
  match e with
  | none => none
  | some e => if e.set.getLsbD bit then some true else if e.clr.getLsbD bit then some false else none

/-- The word read is the memory word with the forced bits of the live table, where the class is forcible (R41, R42). -/
abbrev Overlaid (forces : List ForceEntry) (cls : Classification) (a : Addr) (memory word : Word) : Prop :=
  ∀ i < 16, word.getLsbD i =
    (if cls.forcible then (forcedAt (entryFor forces a) i).getD (memory.getLsbD i) else memory.getLsbD i)

/-- The word written is the given word with the forced bits of the live table in its enabled lanes, where the class is pinned
(R41, R45, R47). -/
abbrev Substituted (forces : List ForceEntry) (cls : Classification) (a : Addr) (lanes : Lanes) (given word : Word) : Prop :=
  ∀ i < 16, word.getLsbD i =
    (if cls.pinned && lanes.enables i then (forcedAt (entryFor forces a) i).getD (given.getLsbD i) else given.getLsbD i)

/-- The reply code, status, data stands ready to be sent from its first frame, and nothing else differs from u (R149, R156,
R158, R167): the segment count is the length divided by 64, rounded up. -/
def State.Answers (u t : State) (code : Byte) (st : Status) (data : List Byte) : Prop :=
  t = { u with exch := { u.exch with
    state := .sending, reply := some (code :: st.code :: data), segCount := some ((data.length + 65) / 64),
    nextIndex := some 1, send := some (.segment 0) } }

/-- A command answers a request taken from s: the state u made of the taking is answered. -/
def Replies (i : Instr) (s u : State) (code : Byte) (st : Status) (data : List Byte) : Prop :=
  ∃ t, exec i s = .next t ∧ u.Answers t code st data

/-- The character is the final byte of a valid REQUEST to this node with this payload (R153, R155). -/
abbrev State.Requests (s : State) (c : RxChar) (payload : List Byte) : Prop := s.finalByte c = some (.request payload)

/-- The bit number of an item, for a BIT item (R91). -/
def WatchItem.bitNumber : WatchItem → Option (BitVec 4)
  | .bit _ k => some k
  | .word _ => none
  | .pair _ => none
  | .block _ _ _ => none
  | .grid _ _ _ _ _ => none

/-- A field of so many bytes that carries a number, most significant byte first (R190). -/
def field : Nat → Nat → List Byte
  | 0, _ => []
  | k + 1, v => BitVec.ofNat 8 (v / 256 ^ k) :: field k v

/-- The one-byte code of a value of a code field: its place in the order R191 lists the values, counted from 0. -/
def codeIn {α : Type} [DecidableEq α] (values : List α) (x : α) : List Byte := field 1 (values.idxOf x)

/-- The levels in the order of their codes (R191). -/
def levels : List Level := [.view, .tune, .service]

/-- The region classes in the order of their codes (R191). -/
def classes : List RegionClass := [.input, .output, .work, .hold, .program, .absent]

/-- The watch modes in the order of their codes (R191). -/
def modes : List WatchMode := [.off, .oneShot, .continuous]

/-- The bank states in the order of their codes (R191). -/
def bankStates : List BankState := [.empty, .filling, .ready, .sending, .sent]

/-- The supervisor states in the order of their codes (R191). -/
def supStates : List SupState := [.inactive, .waitingFirst, .timing, .stalled]

/-- The stall actions in the order of their codes (R191). -/
def stallActions : List StallAction := [.none, .release]

/-- The alert mask of a set (R191), as a number. -/
def AlertSet.maskValue (a : AlertSet) : Nat :=
  a.snapReady.toNat + 2 * a.guard.toNat + 4 * a.leaseLost.toNat + 8 * a.stall.toNat + 16 * a.linkFault.toNat

/-- The bytes of a FORCE word record (R190). -/
def ForceWord.layout (f : ForceWord) : List Byte :=
  field 3 f.addr.toNat ++ [f.fset, f.fclr, f.rel, f.pset, f.pclr].flatMap (fun m => field 2 m.toNat)

/-- The parameters of a FORCE of these words (R190). -/
def forceLayout (ws : List ForceWord) : List Byte := field 1 ws.length ++ ws.flatMap ForceWord.layout

/-- The words a FORCE may carry (R50): 1 to 4, no two at one address, no bit in two masks of one word. -/
abbrev ForceWellFormed (ws : List ForceWord) : Prop :=
  1 ≤ ws.length ∧ ws.length ≤ 4 ∧ ws.Pairwise (fun x y => x.addr ≠ y.addr)
    ∧ ∀ f ∈ ws, ∀ i < 16, ([f.fset, f.fclr, f.rel, f.pset, f.pclr].map (fun m => (m.getLsbD i).toNat)).sum ≤ 1

/-- The parameters of a PEEK (R190). -/
def peekLayout (a : Addr) (n : Nat) : List Byte := field 3 a.toNat ++ field 1 n

/-- The parameters of a POKE (R190). -/
def pokeLayout (a : Addr) (ws : List Word) : List Byte :=
  field 3 a.toNat ++ field 1 ws.length ++ ws.flatMap (fun w => field 2 w.toNat)

/-- The bytes of a watch item encoding (R191, R192). -/
def WatchItem.bytes : WatchItem → List Byte
  | .bit a k => field 1 1 ++ field 3 a.toNat ++ field 1 k.toNat
  | .word a => field 1 2 ++ field 3 a.toNat
  | .pair a => field 1 3 ++ field 3 a.toNat
  | .block a n st => field 1 4 ++ field 3 a.toNat ++ field 2 n ++ field 2 st
  | .grid a n st g gs => field 1 5 ++ field 3 a.toNat ++ field 2 n ++ field 2 st ++ field 2 g ++ field 3 gs

/-- The parameters of a WATCH DEFINE or WATCH APPEND (R181, R192). -/
def itemsLayout (items : List WatchItem) : List Byte := field 1 items.length ++ items.flatMap WatchItem.bytes

/-- The items a WATCH DEFINE or WATCH APPEND may carry (R91, R181). -/
abbrev ItemsWellFormed (items : List WatchItem) : Prop := items.length < 256 ∧ ∀ it ∈ items, it.wf = true

/-- The parameters of a SCAN CONFIG (R185, R190); without a marker its address field is disregarded. -/
def ScanLayout (marker : Option Addr) (limit : BitVec 16) (x : StallAction) (params : List Byte) : Prop :=
  match marker with
  | none => ∃ b2 b1 b0, params = field 1 0 ++ [b2, b1, b0] ++ field 2 limit.toNat ++ codeIn stallActions x
  | some a => params = field 1 1 ++ field 3 a.toNat ++ field 2 limit.toNat ++ codeIn stallActions x

/-- The marker may lie at an address (R134): an enabled region of class WORK or HOLD with the guard clear. -/
def MarkerAt (regions : List Region) (a : Addr) : Prop :=
  ∃ n k, lookup regions a = .region n k false ∧ (k = .work ∨ k = .hold)

/-- The parameters of a REGION SET of a record (R170, R186, R193); bits 7 to 2 of its flags are disregarded. -/
def RegionLayout (n : Nat) (r : Region) (params : List Byte) : Prop :=
  ∃ flags : Byte, flags.getLsbD 0 = r.enabled ∧ flags.getLsbD 1 = r.guard
    ∧ params = field 1 n ++ [flags] ++ field 3 r.base.toNat ++ field 3 r.limit.toNat ++ codeIn classes r.cls

/-- The record conditions of R21 and R35: base not above limit, and the guard clear in an ABSENT region. -/
abbrev RegionWellFormed (n : Nat) (r : Region) : Prop :=
  n ≤ 7 ∧ r.base.toNat ≤ r.limit.toNat ∧ ¬ (r.cls = .absent ∧ r.guard = true)

/-- A word a request names: it lies in the address space and in some enabled region (R26, R168). -/
abbrev Named (regions : List Region) (n : Nat) : Prop := n ≤ 0xFFFFF ∧ lookup regions (BitVec.ofNat 20 n) ≠ .unmapped

/-- The class of a word of a run. -/
def classAt (regions : List Region) (n : Nat) : Option RegionClass := (lookup regions (BitVec.ofNat 20 n)).cls

end Sys2Proof.Machine
end

