-- ==== Sys2Proof/Certificates/Slice0/Obligations.lean ====
section
/-! DEFINITION. The statements for the provers: the step, what the shared operations do, the result and the frame of every
command, and the relations every step keeps. -/

section

open Sys2Proof Sys2Proof.Machine

/-! ## The step, reset and the judging of a frame -/

/-- A step carries out the command at the front of the queue on the state with the queue's rest; an empty queue idles, which
is the model's choice (log entry 6). -/
def Obligations.StepRunsFrontCommand : Prop :=
  ∀ (s : State) (i : Instr) (rest : List Instr),
    step { s with pending := i :: rest } = exec i { s with pending := rest }
      ∧ step { s with pending := [] } = .next { s with pending := [] }

/-- The values after device reset that R5, R13, R22, R31, R39, R59, R75, R83, R92, R108, R109, R133, R145, R154 and R198
give, and every relation of State.Coherent, some of which rest on the model's choices for the pins and the contents of
EMPTY banks (log entries 4, 5, 16). -/
def Obligations.ResetValues : Prop :=
  State.reset.Coherent ∧ State.reset.port = .idle ∧ State.reset.mport = .idle
    ∧ State.reset.arb = ⟨none, false, false, false, 0, .f, none⟩
    ∧ (∀ n < 8, State.reset.regions[n]? =
        some (if n = 0 then ⟨true, 0x00000, 0xFFFFF, .work, false⟩ else ⟨false, 0, 0, .input, false⟩))
    ∧ State.reset.guardLog = ⟨[], 0⟩ ∧ State.reset.forces = [] ∧ State.reset.lease = ⟨.view, none, 0, .stopped⟩
    ∧ State.reset.ops = [] ∧ State.reset.completion = none ∧ State.reset.watch = ⟨[], [], 0, .off⟩
    ∧ State.reset.fill = none ∧ State.reset.missed = 0
    ∧ State.reset.bankA.state = .empty ∧ State.reset.bankB.state = .empty
    ∧ State.reset.sup = ⟨none, 0, .none, .inactive, 0, none, none, none, none, none⟩ ∧ State.reset.time = 0
    ∧ State.reset.rx.state = .hunt ∧ State.reset.exch.state = .idle ∧ State.reset.exch.code = none
    ∧ State.reset.exch.reply = none ∧ State.reset.exch.bank = none ∧ State.reset.exch.faults = 0
    ∧ State.reset.exch.lde = false ∧ State.reset.latched = ⟨false, false, false, false, false⟩
    ∧ State.reset.enabled = ⟨true, true, true, true, true⟩

/-- What a frame is at its final byte: a turn violation (R152), discarded for an error, a failed check or an unknown
kind (R149, R151), or, by kind and node, what R153 gives. The final character is the command's operand and the rest
stands in the frame, which is the model's reading (log entry 8). -/
def Obligations.FinalByteJudged : Prop :=
  ∀ (s : State) (c : RxChar) (f : RxFrame) (node kind len : Byte) (payload : List Byte),
    s.rx.state = .assembling f → s.listening = true → f.chars = node :: kind :: len :: payload →
    payload.length = len.toNat →
    let sum := (f.chars.map BitVec.toNat).sum + c.data.toNat
    let own : Prop := node.toNat = s.strapNode.toNat ∧ s.strapNode ≠ 15
    let k := kind.toNat / 16
    s.finalByte c = some (
      if f.violation = true then .violation
      else if f.flagged = true ∨ c.flagged = true ∨ sum % 256 ≠ 0 ∨ k = 0 ∨ 6 ≤ k then .bad
      else if k = 1 then
        (if own then .request payload else if node.toNat = 15 then .broadcast payload else .requestOther)
      else if k = 2 ∨ k = 3 then .ignored
      else if own ∨ node.toNat = 15 then
        (if k = 4 then .cont (decide own) (kind.toNat % 16) else .abort (decide own))
      else .ignored)

/-- The taking of a REQUEST to this node (R155, R65, R66, R160): a transfer ends, its bank back to READY, the lease is filled
and paused, and the exchange is EXECUTING with the code held. -/
def Obligations.RequestTaken : Prop :=
  ∀ (s : State) (c : RxChar) (code : Byte) (payload : List Byte), s.LinkOk → s.Requests c payload →
    let back : BankId → Bank → Bank := fun i b =>
      if s.exch.bank = some i ∧ b.state = .sending then { b with state := .ready } else b
    s.takeRequest code =
      { s with
        rx := { s.rx with state := .hunt },
        exch := { Exchange.reset with state := .executing, code := some code, faults := s.exch.faults },
        lease := if s.lease.level = .view then { s.lease with cond := .stopped }
          else { s.lease with remaining := s.lease.granted.getD 0 * 100000, cond := .paused },
        bankA := back .a s.bankA, bankB := back .b s.bankB }

/-! ## The shared operations -/

/-- A grant decision (R16) with what the grant begins at memory: a controller read or write with its substitution and
capture check (R6, R10, R11), a fill read of the lowest PENDING element (R114), or the head of the queue, which becomes
ACTIVE (R76 to R79). The capture check asks for a PENDING element at the address, and the fill read takes the address of
the lowest-numbered PENDING element. -/
def Obligations.GrantDecision : Prop :=
  ∀ s : State,
    let engines : Prop := s.arb.waitF = true ∨ s.arb.waitQ = true
    let toC : Prop := s.arb.waitC = true ∧ (s.arb.count < 4 ∨ ¬ engines)
    let toF : Prop := ¬ toC ∧ s.arb.waitF = true ∧ (s.arb.waitQ = true → s.arb.lastEngine = .q)
    let toQ : Prop := ¬ toC ∧ s.arb.waitQ = true ∧ (s.arb.waitF = true → s.arb.lastEngine = .f)
    let owed : Fill → Nat → Addr → Prop := fun f n a =>
      f.states[n]? = some .pending ∧ ∃ e, s.watch.elements[n]? = some e ∧ e.addr = a
    (∀ acc, toC → s.port = .active acc →
      ∀ b, b = { s.arb with waitC := false, count := if s.arb.waitF || s.arb.waitQ then s.arb.count + 1 else 0 } →
        (acc.write = false →
          s.decideGrant = { s with arb := { b with grant := some ⟨.c, .read⟩ }, mport := .reading acc.addr })
        ∧ (acc.write = true → ∃ d, Substituted s.forces acc.cls acc.addr acc.lanes acc.data d
            ∧ s.decideGrant =
              (if s.pendingAt acc.addr then
                { s with arb := { b with grant := some ⟨.c, .captureRead d acc.lanes⟩ }, mport := .reading acc.addr }
              else
                { s with arb := { b with grant := some ⟨.c, .write⟩ }, mport := .writing acc.addr d acc.lanes })))
    ∧ (∀ a, toF → s.lowestPending = some a →
        s.decideGrant = { s with arb := { s.arb with waitF := false, count := 0, lastEngine := .f,
                                                     grant := some ⟨.f, .read⟩ }, mport := .reading a })
    ∧ (∀ o rest, toQ → s.ops = o :: rest →
        ∀ b, b = { s.arb with waitQ := false, count := 0, lastEngine := .q } →
        ∀ u, u = { s with ops := { o with active := true } :: rest } →
          (∀ w, o.kind = .write w → ∃ d, Substituted s.forces o.held o.addr ⟨true, true⟩ w d
            ∧ s.decideGrant =
              (if s.pendingAt o.addr then
                { u with arb := { b with grant := some ⟨.q, .captureRead d ⟨true, true⟩⟩ }, mport := .reading o.addr }
              else
                { u with arb := { b with grant := some ⟨.q, .write⟩ }, mport := .writing o.addr d ⟨true, true⟩ }))
          ∧ ((∀ w, o.kind ≠ .write w) →
              s.decideGrant = { u with arb := { b with grant := some ⟨.q, .read⟩ }, mport := .reading o.addr }))
    ∧ (¬ engines → s.arb.waitC = false → s.decideGrant = s)
    ∧ (∀ a, s.pendingAt a = true ↔ ∃ f n, s.fill = some f ∧ owed f n a)
    ∧ (∀ a, s.lowestPending = some a ↔ ∃ f n, s.fill = some f ∧ owed f n a ∧ ∀ m < n, ∀ b, ¬ owed f m b)

/-- What the Scan Supervisor does at a marker, in the order of R135: the sequence, then the work of its state and the
period's statistics (R137, R138), then the last marker time; the Capture Unit then judges the marker with the period. An
expiry of the scan limit that is due is taken first (R139, R141), which is the model's reading of their order (log entry
11). -/
def Obligations.MarkerOnSupervisor : Prop :=
  ∀ s : State,
    let due : Prop := s.sup.state = .timing ∧ ∃ e : Micros, s.sup.elapsed = some e ∧ s.sup.limit.toNat * 100 < e.toNat
    ∀ u, (due → u = { s with
          sup := { s.sup with state := .stalled }, latched := { s.latched with stall := true },
          forces := if s.sup.action = .release then [] else s.forces }) →
      (¬ due → u = s) →
    let timed : Prop := s.sup.state = .timing ∨ s.sup.state = .stalled
    ∀ p v, p = (if timed then some (s.sup.elapsed.getD 0) else none) →
      v = { s.sup with
        seq := s.sup.seq + 1, lastMarker := some s.time,
        state := if s.sup.state = .inactive then .inactive else .timing,
        elapsed := if s.sup.state = .inactive then s.sup.elapsed else some 0,
        lastPeriod := if p = none then s.sup.lastPeriod else p,
        minPeriod := match p with
          | none => s.sup.minPeriod
          | some p => if s.sup.minPeriod.all (fun m => decide (p < m)) then some p else s.sup.minPeriod,
        maxPeriod := match p with
          | none => s.sup.maxPeriod
          | some p => if s.sup.maxPeriod.all (fun m => decide (m < p)) then some p else s.sup.maxPeriod } →
      s.marker = { u with sup := v }.judgeMarker p

/-- What the Capture Unit does at a marker (R104, R110 to R113, R119): nothing at mode OFF, a missed marker, or the start of
a fill with its frozen force view, element states, header and layout; a fill whose elements are all ABSENT completes at once
and makes no claim. -/
def Obligations.MarkerOnCaptureUnit : Prop :=
  ∀ (s : State) (p : Option Micros),
    (s.watch.mode = .off → s.judgeMarker p = s)
    ∧ (s.watch.mode ≠ .off → (s.fill ≠ none ∨ (s.bankA.state ≠ .empty ∧ s.bankB.state ≠ .empty)) →
        s.judgeMarker p = { s with missed := if s.missed < 255 then s.missed + 1 else s.missed })
    ∧ (s.watch.mode ≠ .off → s.fill = none → (s.bankA.state = .empty ∨ s.bankB.state = .empty) →
        ∀ i, i = (if s.bankA.state = .empty then BankId.a else BankId.b) →
        ∀ mode, mode = (if s.watch.mode = .oneShot then .off else s.watch.mode) →
          let absent : Element → Prop := fun e => (lookup s.regions e.addr).isAbsent = true
          ∃ t b, s.judgeMarker p = t ∧ t.bank i = b
            ∧ b.header = ⟨i, s.watch.generation, s.sup.seq, s.time, p, s.missed, s.watch.elements.length,
                s.watch.items.length, false⟩
            ∧ b.layout.length = s.watch.items.length
            ∧ (∀ (n : Nat) (it : WatchItem), s.watch.items[n]? = some it →
                b.layout[n]? = some ⟨match it with
                  | .bit _ _ => .bit
                  | .word _ => .word
                  | .pair _ => .pair
                  | .block _ _ _ => .block
                  | .grid _ _ _ _ _ => .grid, it.addresses.length, it.bitNumber⟩)
            ∧ b.second = decide ((s.bank i.other).state ≠ .empty)
            ∧ (∀ (n : Nat) (e : Element), s.watch.elements[n]? = some e → absent e → n < 256 →
                b.words[n]? = some 0 ∧ b.flags[n]? = some false)
            ∧ ((∃ e ∈ s.watch.elements, ¬ absent e) → b.state = .filling
              ∧ ∃ states : List ElemState, states.length = s.watch.elements.length
                ∧ (∀ (n : Nat) (e : Element), s.watch.elements[n]? = some e →
                    (absent e → states[n]? = some .captured) ∧ (¬ absent e → states[n]? = some .pending))
                ∧ t = { s.setBank i b with
                    fill := some ⟨i, s.forces, states⟩, missed := 0, arb := { s.arb with waitF := true },
                    watch := { s.watch with mode := mode } })
            ∧ ((∀ e ∈ s.watch.elements, absent e) → b.state = .ready
              ∧ t = { s.setBank i b with
                    fill := none, missed := 0, arb := { s.arb with waitF := false },
                    watch := { s.watch with mode := mode }, latched := { s.latched with snapReady := true } }))

/-- The capture of the elements PENDING at an address from a word read at memory (R116): the frozen view overlaid, the
forced flag by the kind of the item, every other element as it stood; with none PENDING left the fill completes (R119). -/
def Obligations.WordCaptured : Prop :=
  ∀ (s : State) (f : Fill) (a : Addr) (w : Word),
    s.fill = some f → f.states.length = s.watch.elements.length → s.watch.elements.length ≤ 256 →
    (s.bank f.bank).words.length = 256 → (s.bank f.bank).flags.length = 256 →
    (s.bank f.bank).header.elementCount = s.watch.elements.length →
    let t := s.capture a w
    let hit : Nat → Element → Prop := fun n e => f.states[n]? = some .pending ∧ e.addr = a
    let left : Prop := ∃ (n : Nat) (e : Element), s.watch.elements[n]? = some e ∧ f.states[n]? = some .pending ∧ e.addr ≠ a
    (∀ (n : Nat) (e : Element), s.watch.elements[n]? = some e → hit n e →
        (∃ x, (t.bank f.bank).words[n]? = some x
          ∧ ∀ i < 16, x.getLsbD i = (forcedAt (entryFor f.frozen a) i).getD (w.getLsbD i))
        ∧ (t.bank f.bank).flags[n]? = some (match s.watch.items[e.item]? with
            | some (.bit _ k) => (forcedAt (entryFor f.frozen a) k.toNat).isSome
            | _ => (entryFor f.frozen a).isSome))
    ∧ (∀ n : Nat, (∀ e, s.watch.elements[n]? = some e → ¬ hit n e) →
        (t.bank f.bank).words[n]? = (s.bank f.bank).words[n]? ∧ (t.bank f.bank).flags[n]? = (s.bank f.bank).flags[n]?)
    ∧ (left → ∃ g, t.fill = some g ∧ g.bank = f.bank ∧ g.frozen = f.frozen ∧ g.states.length = f.states.length
        ∧ (∀ (n : Nat) (e : Element), s.watch.elements[n]? = some e → (hit n e → g.states[n]? = some .captured)
            ∧ (¬ hit n e → g.states[n]? = f.states[n]?))
        ∧ t = { s.setBank f.bank (t.bank f.bank) with fill := some g }
        ∧ (t.bank f.bank).state = (s.bank f.bank).state ∧ (t.bank f.bank).header = (s.bank f.bank).header)
    ∧ (¬ left → (t.bank f.bank).state = .ready
        ∧ (t.bank f.bank).header = { (s.bank f.bank).header with
            forcedPresent := ((t.bank f.bank).flags.take s.watch.elements.length).any id }
        ∧ t = { s.setBank f.bank (t.bank f.bank) with
            fill := none, arb := { s.arb with waitF := false }, latched := { s.latched with snapReady := true } })

/-- The queue (R75, R76, R80): operations join a queue that holds some at its tail and change nothing else; and when the head
retires, the result of a READ goes to its position, ABSENT operations pass the head together (a READ giving 0000H), the next
operation holds its classification, and Q waits for it at the decision that follows. A READ whose PEEK was abandoned, a
WRITE and a MODIFY leave the completion record as it stands (R83, R86; the mark on such a READ is log entry 13). -/
def Obligations.QueueOrder : Prop :=
  (∀ (s : State) (new : List Operation), s.queueOk = true → s.PathOk → s.ops ≠ [] →
      s.enqueue new = { s with ops := s.ops ++ new })
  ∧ (∀ (s : State) (w : Word) (o : Operation) (gone : List Operation) (nx : Operation) (rest : List Operation),
      s.ops = o :: (gone ++ nx :: rest) → (∀ g ∈ gone, g.cls = none ∧ (lookup s.regions g.addr).isAbsent = true) →
      nx.cls = none → nx.active = false → (lookup s.regions nx.addr).isAbsent = false →
      ∀ c, c = gone.foldl (fun c g => handOn c g 0) (handOn s.completion o w) →
        s.retireHead w = { s with
          ops := { nx with cls := some (lookup s.regions nx.addr) } :: rest, completion := c, mport := .idle,
          arb := { s.arb with grant := none, waitQ := true } }.decideGrant)
  ∧ (∀ (s : State) (w : Word) (o : Operation) (gone : List Operation),
      s.ops = o :: gone → (∀ g ∈ gone, g.cls = none ∧ (lookup s.regions g.addr).isAbsent = true) →
      ∀ c, c = gone.foldl (fun c g => handOn c g 0) (handOn s.completion o w) →
        s.retireHead w = { s with
          ops := [], completion := c, mport := .idle,
          arb := { s.arb with grant := none, waitQ := false } }.decideGrant.examineRecord)
  ∧ (∀ (o : Operation) (i : Nat) (results : List (Option Word)) (w : Word), o.kind = .read i → o.dropped = false →
      handOn (some (.peek results)) o w = some (.peek (results.set i (some w))))
  ∧ (∀ (o : Operation) (c : Option Completion) (w : Word),
      (o.dropped = true ∨ (∀ i, o.kind ≠ .read i) ∨ ∀ results, c ≠ some (.peek results)) → handOn c o w = c)

/-- A reply is cut into segments (R158) and each is sent as a frame (R149, R189): the pieces joined are the reply, every
piece but the last has 64 bytes, and the frame at position k carries segment number k modulo 16, REPLY at the last and PART
before it, with a check byte that makes the sum 0 modulo 256. The FORMAT reply of R159 is a REPLY of segment number 0 that
carries the request code and 02H. What is to be sent stands in the send field, the model's own (log entry 14). -/
def Obligations.ReplySegments : Prop :=
  (∀ (s : State) (r : List Byte), 2 ≤ r.length →
    let n := segmentCount r
    (List.range n).flatMap (segmentPayload r) = r ∧ 1 ≤ n
      ∧ (∀ k, k + 1 < n → (segmentPayload r k).length = 64)
      ∧ 1 ≤ (segmentPayload r (n - 1)).length ∧ (segmentPayload r (n - 1)).length ≤ 64
      ∧ (∀ k, k < n → s.exch.send = some (.segment k) → s.exch.reply = some r → s.exch.segCount = some n →
          ∃ kind check : Byte, s.outgoing = some (0xC3 :: s.strapNode.setWidth 8 :: kind
              :: BitVec.ofNat 8 (segmentPayload r k).length :: (segmentPayload r k ++ [check]))
            ∧ kind.toNat = (if k + 1 = n then 2 else 3) * 16 + k % 16
            ∧ (s.strapNode.toNat + kind.toNat + (segmentPayload r k).length
                + ((segmentPayload r k).map BitVec.toNat).sum + check.toNat) % 256 = 0))
  ∧ (∀ (s : State) (code : Byte), s.exch.send = some .formatReply → s.exch.code = some code →
      ∃ check : Byte, s.outgoing = some [0xC3, s.strapNode.setWidth 8, 0x20, 0x02, code, 0x02, check]
        ∧ (s.strapNode.toNat + 0x20 + 0x02 + code.toNat + 0x02 + check.toNat) % 256 = 0)

/-! ## The access path -/

/-- Pins that form no access end the cycle: DONE returns to IDLE and an ACTIVE access goes on to its end (R2, R3); and pins
that form one take no access while one is held or SYSRSTN is low (R1, R20). WAITN is low while an access is ACTIVE, and while
SYSRSTN is low whenever the pins form one; in DONE a read's enabled lanes are driven while OEN is low (R1, R2, R20). On the
memory side (R5) IDLE drives no strobe, a read drives the chip select, the output enable and both lane enables, and a write
drives the chip select, the write enable, the lane enables of its lanes and the bytes of those lanes. That a write's output
enable and a read's write enable stand high is the model's reading (log entry 27). -/
def Obligations.CycleEndAndHeldPort : Prop :=
  ∀ (s : State) (p : BusPins),
    (p.takes = false → exec (.cycleEnd p) s = .next { s with
        bus := p,
        port := match s.port with
          | .idle => .idle
          | .active acc => .active { acc with ended := true }
          | .done _ _ => .idle })
    ∧ (p.takes = true → (s.port ≠ .idle ∨ s.sysrstn = false) →
        exec (.accessTake p) s = .next { s with bus := p })
    ∧ (s.waitn = false ↔ (s.sysrstn = true ∧ ∃ acc, s.port = .active acc) ∨ (s.sysrstn = false ∧ s.bus.takes = true))
    ∧ (∀ acc word, s.port = .done acc word →
        s.dUpper = (if acc.lanes.upper = true ∧ s.bus.oen = false then word.map (fun w => w.extractLsb' 8 8) else none)
        ∧ s.dLower = (if acc.lanes.lower = true ∧ s.bus.oen = false then word.map (fun w => w.extractLsb' 0 8) else none))
    ∧ ((∀ acc word, s.port ≠ .done acc word) → s.dUpper = none ∧ s.dLower = none)
    ∧ (s.mport = .idle →
        s.memPins.mcsn = true ∧ s.memPins.moen = true ∧ s.memPins.mwen = true ∧ s.memPins.data = none)
    ∧ (∀ a, s.mport = .reading a →
        s.memPins.mcsn = false ∧ s.memPins.moen = false ∧ s.memPins.mwen = true ∧ s.memPins.mubn = some false
          ∧ s.memPins.mlbn = some false ∧ s.memPins.addr = some a ∧ s.memPins.data = none)
    ∧ (∀ a d lanes, s.mport = .writing a d lanes →
        s.memPins.mcsn = false ∧ s.memPins.moen = true ∧ s.memPins.mwen = false
          ∧ s.memPins.mubn = some (!lanes.upper) ∧ s.memPins.mlbn = some (!lanes.lower) ∧ s.memPins.addr = some a
          ∧ ∃ md, s.memPins.data = some md
            ∧ (lanes.upper = true → md.extractLsb' 8 8 = d.extractLsb' 8 8)
            ∧ (lanes.lower = true → md.extractLsb' 0 8 = d.extractLsb' 0 8))

/-- A controller access that needs no memory (R7, R8, R9, R29, R31): a read of an ABSENT word gives 0000H, a write of
one is discarded, and a write into a guarded region makes a Guard Log record or a drop and latches GUARD. It makes no
claim; a reservation it meets ends in a decision without it (R17). That it ends within its take, and that data of a
disabled lane stands as 0, are the model's (log entries 15, 20). -/
def Obligations.AccessAnsweredLocally : Prop :=
  ∀ (s : State) (p : BusPins), s.sysrstn = true → s.port = .idle → p.takes = true → s.arb.waitC = false →
    let acc := heldAccess s.regions p
    let absent : Prop := ∃ n g, acc.cls = .region n .absent g
    let blocked : Prop := acc.write = true ∧ ∃ n k, acc.cls = .region n k true ∧ k ≠ .absent
    ∀ u, u = (if s.arb.reservation = none then s
        else { s with arb := { s.arb with reservation := none } }.decideGrant) →
      (absent → exec (.accessTake p) s = .next { u with
          bus := p, port := .done acc (if acc.write then none else some 0) })
      ∧ (blocked → exec (.accessTake p) s = .next { u with
          bus := p, port := .done acc none,
          guardLog := (if s.guardLog.records.length < 16 then
              { s.guardLog with records := s.guardLog.records
                  ++ [⟨p.addr, acc.data, acc.lanes, s.sup.seq, s.time⟩] }
            else { s.guardLog with
              dropped := if s.guardLog.dropped < 255 then s.guardLog.dropped + 1 else s.guardLog.dropped }),
          latched := { s.latched with guard := true } })

/-- A controller access that is forwarded (R1, R4, R6, R8, R14, R15, R17): the port holds it with its classification and C
waits; at a port that is free or reserved for the controller the decision is made at once with C waiting. That the held data
of a disabled lane and of a read stands as 0 is the model's (log entry 15). -/
def Obligations.AccessForwarded : Prop :=
  ∀ (s : State) (p : BusPins), s.sysrstn = true → s.port = .idle → p.takes = true →
    let acc := heldAccess s.regions p
    acc.cls.cls ≠ some .absent → (acc.write = true → acc.cls.guarded = false) →
    ∀ u, u = { s with bus := p, port := .active acc, arb := { s.arb with waitC := true, reservation := none } } →
      (s.arb.grant ≠ none → s.arb.reservation = none → exec (.accessTake p) s = .next u)
      ∧ (s.arb.grant = none → (s.arb.reservation ≠ none ∨ s.arb.anyWaits = false) →
          exec (.accessTake p) s = .next u.decideGrant)

/-- The data of a controller read returns (R6, R42, R2, R3, R17): the word is overlaid from the table as it stands, the
grant ends in a reservation of 250 ns or, at a count of 4 with an engine waiting, in a decision, and the access is DONE;
one whose cycle has ended leaves the port IDLE to take the cycle then on the bus. The time the reservation ends is kept
in ns of the Time Base, the model's choice (log entry 10). -/
def Obligations.ControllerReadReturns : Prop :=
  ∀ (s : State) (acc : Access) (a : Addr),
    s.arb.grant = some ⟨.c, .read⟩ → s.mport = .reading a → s.port = .active acc →
    ∃ w, Overlaid s.forces acc.cls a (s.mem.readWord a) w ∧
      ∀ u v, u = { s with arb := { s.arb with grant := none }, mport := .idle } →
        v = (if s.arb.count = 4 ∧ (s.arb.waitF = true ∨ s.arb.waitQ = true) then u.decideGrant
          else { u with arb := { u.arb with reservation := some (1000 * s.time.toNat + 250) } }) →
        (acc.ended = false → exec .controllerReadDataReturn s = .next { v with port := .done acc (some w) })
        ∧ (acc.ended = true → (s.bus.takes = false ∨ s.sysrstn = false) →
            exec .controllerReadDataReturn s = .next { v with port := .idle })
        ∧ (acc.ended = true → s.bus.takes = true → s.sysrstn = true →
            exec .controllerReadDataReturn s = exec (.accessTake s.bus) { v with port := .idle })

/-- A controller write reaches memory (R10, R12, R2, R3, R17): each enabled lane of its word takes its byte and every
other byte of memory keeps its content, a write to the marker address is a marker, and the grant ends as after a read.
That the marker is taken before the decision at the grant's end is the model's reading (log entry 9), and the time the
reservation ends, kept in ns of the Time Base, is its choice (log entry 10). -/
def Obligations.ControllerWriteReaches : Prop :=
  ∀ (s : State) (acc : Access) (a : Addr) (d : Word) (lanes : Lanes),
    s.mem.wf → s.arb.grant = some ⟨.c, .write⟩ → s.mport = .writing a d lanes → s.port = .active acc →
    ∃ m : Memory,
      (∀ k, m.readByte k = if k = 2 * a.toNat ∧ lanes.lower = true then d.extractLsb' 0 8
        else if k = 2 * a.toNat + 1 ∧ lanes.upper = true then d.extractLsb' 8 8 else s.mem.readByte k) ∧
      ∀ x u v, x = (if s.sup.marker = some acc.addr then { s with mem := m }.marker else { s with mem := m }) →
        u = { x with arb := { x.arb with grant := none }, mport := .idle } →
        v = (if u.arb.count = 4 ∧ (u.arb.waitF = true ∨ u.arb.waitQ = true) then u.decideGrant
          else { u with arb := { u.arb with reservation := some (1000 * s.time.toNat + 250) } }) →
        (acc.ended = false → exec .controllerWriteReachesMemory s = .next { v with port := .done acc none })
        ∧ (acc.ended = true → (s.bus.takes = false ∨ s.sysrstn = false) →
            exec .controllerWriteReachesMemory s = .next { v with port := .idle })
        ∧ (acc.ended = true → s.bus.takes = true → s.sysrstn = true →
            exec .controllerWriteReachesMemory s = exec (.accessTake s.bus) { v with port := .idle })

/-- The 250 ns elapse (R17): the reservation ends and the decision is made with the claimants then waiting; with none
waiting no grant is made (R15). -/
def Obligations.ReservationExpires : Prop :=
  ∀ (s : State) (n : Nat), s.arb.reservation = some n →
    (exec .reservationExpiry s = .next { s with arb := { s.arb with reservation := none } }.decideGrant)
    ∧ (s.arb.anyWaits = false → exec .reservationExpiry s = .next { s with arb := { s.arb with reservation := none } })

/-- The read of a pair returns (R11, R46, R79, R117): the elements PENDING at the address are captured from it and the write
begins under the same grant, with the data settled at the grant, or for a MODIFY with its masks and then substitution. -/
def Obligations.PairReadReturns : Prop :=
  (∀ (s : State) (h : Claimant) (a : Addr) (d : Word) (lanes : Lanes),
    s.arb.grant = some ⟨h, .captureRead d lanes⟩ → s.mport = .reading a →
    ∀ t, t = s.capture a (s.mem.readWord a) →
      exec .captureReadReturn s =
        .next { t with arb := { t.arb with grant := some ⟨h, .write⟩ }, mport := .writing a d lanes })
  ∧ (∀ (s : State) (a : Addr) (o : Operation) (rest : List Operation) (st cl : Word),
    s.arb.grant = some ⟨.q, .read⟩ → s.mport = .reading a → s.ops = o :: rest → o.kind = .modify st cl →
    st &&& cl = 0 →
    ∃ x d, (∀ i < 16, x.getLsbD i =
        if st.getLsbD i then true else if cl.getLsbD i then false else (s.mem.readWord a).getLsbD i)
      ∧ Substituted s.forces o.held a ⟨true, true⟩ x d
      ∧ ∀ t, t = s.capture a (s.mem.readWord a) →
        exec .modifyReadComplete s =
          .next { t with arb := { t.arb with grant := some ⟨.q, .write⟩ }, mport := .writing a d ⟨true, true⟩ })

/-- A fill read returns (R114, R18): every element PENDING at the address is captured, the grant ends, and F waits again at
that decision exactly while an element of the fill in flight is PENDING; without one the word is discarded (R129). -/
def Obligations.FillReadReturns : Prop :=
  ∀ (s : State) (a : Addr), s.arb.grant = some ⟨.f, .read⟩ → s.mport = .reading a →
    ∀ t, t = s.capture a (s.mem.readWord a) →
      exec .fillReadReturn s = .next { t with
        arb := { t.arb with grant := none, waitF := t.lowestPending.isSome }, mport := .idle }.decideGrant
      ∧ (t.lowestPending.isSome = true ↔ ∃ (f : Fill) (n : Nat) (e : Element),
          t.fill = some f ∧ f.states[n]? = some .pending ∧ t.watch.elements[n]? = some e)
      ∧ (s.fill = none → t = s)

/-- An operation ends at memory (R77, R78, R79, R80): the word of a READ is overlaid from the table as it stands, a WRITE or
MODIFY changes the bytes of its lanes and no other, and the operation retires. -/
def Obligations.OperationsEnd : Prop :=
  (∀ (s : State) (a : Addr) (o : Operation) (rest : List Operation) (i : Nat),
    s.arb.grant = some ⟨.q, .read⟩ → s.mport = .reading a → s.ops = o :: rest → o.kind = .read i →
    ∃ w, Overlaid s.forces o.held a (s.mem.readWord a) w
      ∧ exec .readOperationDataReturn s = .next (s.retireHead w) ∧ (s.retireHead w).mem = s.mem)
  ∧ (∀ (s : State) (a : Addr) (d : Word) (lanes : Lanes) (o : Operation) (rest : List Operation),
    s.mem.wf → s.arb.grant = some ⟨.q, .write⟩ → s.mport = .writing a d lanes → s.ops = o :: rest →
    ∃ m : Memory,
      (∀ k, m.readByte k = if k = 2 * a.toNat ∧ lanes.lower = true then d.extractLsb' 0 8
        else if k = 2 * a.toNat + 1 ∧ lanes.upper = true then d.extractLsb' 8 8 else s.mem.readByte k)
      ∧ ((∃ w, o.kind = .write w) →
          exec .writeOperationReachesMemory s = .next ({ s with mem := m }.retireHead 0))
      ∧ ((∃ st cl, o.kind = .modify st cl) →
          exec .modifyWriteReachesMemory s = .next ({ s with mem := m }.retireHead 0))
      ∧ ({ s with mem := m }.retireHead 0).mem = m)

/-! ## Reset, pins and time -/

/-- SYSRSTN falls (R19, R20, R89): a write begun, or one behind a capture read, reaches memory in its lanes and no other
byte changes; any other grant leaves memory as it stood; and every block takes its reset values, the pins and straps
apart. Fall, carried access and reset values are one step, which is the model's reading (log entry 12), and what an EMPTY
bank holds is its choice (log entry 16). -/
def Obligations.SysrstnFalls : Prop :=
  ∀ s : State, s.sysrstn = true → s.mem.wf → s.PathOk →
    ∃ m : Memory,
      (∀ h a d lanes, s.arb.grant = some ⟨h, .captureRead d lanes⟩ ∧ s.mport = .reading a
          ∨ s.arb.grant = some ⟨h, .write⟩ ∧ s.mport = .writing a d lanes →
        ∀ k, m.readByte k = if k = 2 * a.toNat ∧ lanes.lower = true then d.extractLsb' 0 8
          else if k = 2 * a.toNat + 1 ∧ lanes.upper = true then d.extractLsb' 8 8 else s.mem.readByte k)
      ∧ ((∀ g, s.arb.grant = some g → g.stage = .read) → m = s.mem)
      ∧ exec .sysrstnFall s = .next { State.reset with
          pending := s.pending, sysrstn := false, bus := s.bus, ctlrun := s.ctlrun, strapNode := s.strapNode,
          strapRate := s.strapRate, mem := m }

/-- Pin edges. SYSRSTN rises (R147, R165, R20): the straps are sampled, the receiver hunts and at a line at space awaits
mark, and a cycle on the bus is taken. CTLRUN changes (R136): a fall makes the supervisor INACTIVE with the elapsed time
absent; a rise makes an INACTIVE one WAITING_FIRST where a limit and a marker are configured. Nothing else changes. -/
def Obligations.PinEdges : Prop :=
  ∀ s : State,
    (∀ (node : BitVec 4) (rate : BitVec 2) (space : Bool) (u : State), s.sysrstn = false →
      u = { s with
        sysrstn := true, strapNode := node, strapRate := rate, rx := ⟨.hunt, space⟩ } →
      (s.bus.takes = false → exec (.sysrstnRise node rate space) s = .next u)
      ∧ (s.bus.takes = true → exec (.sysrstnRise node rate space) s = exec (.accessTake s.bus) u))
    ∧ (s.sysrstn = true → s.ctlrun = true → exec .ctlrunFall s = .next { s with
        ctlrun := false, sup := { s.sup with state := .inactive, elapsed := none } })
    ∧ (s.sysrstn = true → s.ctlrun = false → exec .ctlrunRise s = .next { s with
        ctlrun := true,
        sup := { s.sup with state := if s.sup.state = .inactive ∧ s.sup.limit ≠ 0 ∧ s.sup.marker ≠ none
          then .waitingFirst else s.sup.state } })

/-- The expiries (R139, R140, R67, R61, R161). The scan limit expires in TIMING when the elapsed time is greater than
the limit times 100 µs: STALLED, STALL latched, and with action RELEASE an empty Force Table; in every other state
nothing is judged. A RUNNING lease at 0 expires: VIEW, release all, no granted duration, STOPPED and LEASE_LOST. After 1
s in AWAIT_CONTINUE the transfer ends with no frame, its bank back to READY; in every other exchange state the limit does
nothing. The rows are commands of their own, the model's reading of the table (log entry 11), and a row that is not due
changes nothing, its choice (log entry 7). -/
def Obligations.ExpiriesTaken : Prop :=
  ∀ s : State,
    (∀ e : Micros, s.sup.elapsed = some e →
      (s.sup.state = .timing → s.sup.limit.toNat * 100 < e.toNat → exec .scanLimitExpiry s = .next { s with
          sup := { s.sup with state := .stalled }, latched := { s.latched with stall := true },
          forces := if s.sup.action = .release then [] else s.forces })
      ∧ (e.toNat ≤ s.sup.limit.toNat * 100 → exec .scanLimitExpiry s = .next s))
    ∧ (s.sup.state ≠ .timing → exec .scanLimitExpiry s = .next s)
    ∧ (s.lease.cond = .running → s.lease.remaining = 0 → exec .leaseExpiry s = .next { s with
        lease := ⟨.view, none, 0, .stopped⟩, forces := [], latched := { s.latched with leaseLost := true } })
    ∧ (s.lease.cond ≠ .running ∨ s.lease.remaining ≠ 0 → exec .leaseExpiry s = .next s)
    ∧ (∀ t : Nat, s.exch.state = .awaitContinue → s.exch.contTime = some t →
      (1000000 ≤ t → exec .continuationLimit s = .next { s with
        exch := { Exchange.reset with faults := s.exch.faults },
        lease := { s.lease with cond := if s.lease.level = .view then .stopped else .running },
        bankA := if s.exch.bank = some .a ∧ s.bankA.state = .sending then { s.bankA with state := .ready } else s.bankA,
        bankB := if s.exch.bank = some .b ∧ s.bankB.state = .sending then { s.bankB with state := .ready } else s.bankB })
      ∧ (t < 1000000 → exec .continuationLimit s = .next s))
    ∧ (s.exch.state ≠ .awaitContinue → exec .continuationLimit s = .next s)

/-- One µs passes (R59, R133, R145, R161): the count advances and wraps, a RUNNING lease loses one µs, the elapsed time and
the continuation time gain one, the elapsed time holding at FFFFFFFFH; with SYSRSTN low nothing changes. Expiries that are
due (R67, R139, R161) are taken before the tick, the lease, the scan limit and the continuation limit in this order. That a
tick is one command, and that order, are the model's (log entries 6, 11). -/
def Obligations.TimeBaseTicks : Prop :=
  ∀ s : State,
    (s.sysrstn = false → exec .timeBaseTick s = .next s)
    ∧ (s.sysrstn = true → (s.lease.cond = .running → 1 ≤ s.lease.remaining) →
        (s.sup.state = .timing → ∀ e, s.sup.elapsed = some e → e.toNat ≤ s.sup.limit.toNat * 100) →
        (s.exch.state = .awaitContinue → ∃ t, s.exch.contTime = some t ∧ t < 1000000) →
        ∃ l v e, exec .timeBaseTick s = .next { s with time := s.time + 1, lease := l, sup := v, exch := e }
          ∧ l = { s.lease with
              remaining := if s.lease.cond = .running then s.lease.remaining - 1 else s.lease.remaining }
          ∧ v = { s.sup with elapsed := s.sup.elapsed.map (fun e => if e.toNat = 0xFFFFFFFF then e else e + 1) }
          ∧ e = { s.exch with
              contTime := if s.exch.state = .awaitContinue then s.exch.contTime.map (· + 1) else s.exch.contTime })
    ∧ (s.sysrstn = true → ∀ x y u, exec .leaseExpiry s = .next x → exec .scanLimitExpiry x = .next y →
        exec .continuationLimit y = .next u → exec .timeBaseTick s = .next { u with
          time := s.time + 1,
          lease := { u.lease with
            remaining := if u.lease.cond = .running then u.lease.remaining - 1 else u.lease.remaining },
          sup := { u.sup with elapsed := u.sup.elapsed.map (fun e => if e.toNat = 0xFFFFFFFF then e else e + 1) },
          exch := { u.exch with
            contTime := if u.exch.state = .awaitContinue then u.exch.contTime.map (· + 1) else u.exch.contTime } })

/-! ## The link -/

/-- The receiver (R150): in HUNT an unflagged C3H begins a frame, marked where the part holds the turn (R152), and every
other character is discarded; in ASSEMBLING a node, kind, length of at most 64 or payload character joins the frame; and the
line's return to mark lets the receiver hunt (R148). -/
def Obligations.FramesAssemble : Prop :=
  ∀ (s : State) (c : RxChar), s.sysrstn = true →
    (s.rx.awaitMark = false → s.exch.lde = false → s.rx.state = .hunt → c.data = 0xC3 → c.flagged = false →
      exec (.frameStart c) s = .next { s with
        rx := { s.rx with state := .assembling ⟨[], false, s.exch.state = .executing ∨ s.exch.state = .sending⟩ },
        exch := { s.exch with state := if s.exch.state = .idle then .receiving else s.exch.state },
        lease := if s.exch.state = .idle then { s.lease with
          cond := if s.lease.level = .view then .stopped else .running } else s.lease })
    ∧ (s.rx.state = .hunt → (c.data ≠ 0xC3 ∨ c.flagged = true) → exec (.frameStart c) s = .next s)
    ∧ (∀ f, s.rx.awaitMark = false → s.exch.lde = false → s.rx.state = .assembling f →
        (f.chars.length < 2 ∨ (f.chars.length = 2 ∧ c.data.toNat ≤ 64)
          ∨ ∃ a b n p, f.chars = a :: b :: n :: p ∧ p.length < n.toNat) →
        exec (.frameCharacterTaken c) s = .next { s with
          rx := { s.rx with state := .assembling ⟨f.chars ++ [c.data], f.flagged || c.flagged, f.violation⟩ } })
    ∧ exec .lrxReturnsToMark s = .next { s with rx := { s.rx with awaitMark := false } }

/-- A frame is discarded (R151, R152): at an over-long length, at the inter-byte timeout, or at a final byte that judges it
bad or a turn violation. It ends, the link fault count advances and holds at 255, LINK_FAULT is latched, and RECEIVING
returns to IDLE; nothing else changes. -/
def Obligations.FramesDiscarded : Prop :=
  ∀ (s : State) (c : RxChar) (f : RxFrame), s.rx.state = .assembling f →
    ∀ t, t = { s with
        rx := { s.rx with state := .hunt },
        exch := { s.exch with
          state := if s.exch.state = .receiving then .idle else s.exch.state,
          faults := if s.exch.faults < 255 then s.exch.faults + 1 else s.exch.faults },
        lease := if s.exch.state = .receiving then { s.lease with
          cond := if s.lease.level = .view then .stopped else .running } else s.lease,
        latched := { s.latched with linkFault := true } } →
      (s.listening = true → f.chars.length = 2 → 64 < c.data.toNat → exec (.overlongLength c) s = .next t)
      ∧ (s.listening = true → exec .interByteTimeout s = .next t)
      ∧ (s.finalByte c = some .bad → exec (.badFrame c) s = .next t)
      ∧ (s.finalByte c = some .violation → exec (.turnViolationAtFinalByte c) s = .next t)

/-- Frames that end this node's transfer, or do not (R153, R160, R162): an ignored frame does not; a REQUEST to another node
and an ABORT to this node or to 15 do, in AWAIT_CONTINUE, with the bank under transfer back to READY; an ABORT to this node
renews the lease. -/
def Obligations.FramesEndTransfer : Prop :=
  ∀ (s : State) (c : RxChar), s.LinkOk →
    let ready : BankId → Bank → Bank := fun i b =>
      if s.exch.bank = some i ∧ b.state = .sending then { b with state := .ready } else b
    let settled : Lease := { s.lease with cond := if s.lease.level = .view then .stopped
      else if s.exch.state.holdsTurn then .paused else .running }
    ∀ kept ended, kept = { s with
        rx := { s.rx with state := .hunt },
        exch := { s.exch with state := if s.exch.state = .receiving then .idle else s.exch.state } } →
      ended = { s with
        rx := { s.rx with state := .hunt },
        exch := { Exchange.reset with faults := s.exch.faults }, bankA := ready .a s.bankA, bankB := ready .b s.bankB } →
      s.lease = settled →
      (s.finalByte c = some .ignored → exec (.ignoredFrame c) s = .next kept)
      ∧ (s.finalByte c = some .requestOther → exec (.requestOtherNode c) s = .next ended)
      ∧ (s.finalByte c = some (.abort false) → exec (.abortFrame c) s = .next ended)
      ∧ (s.finalByte c = some (.abort true) → exec (.abortFrame c) s = .next { ended with lease := s.lease.renew })

/-- A broadcast request (R71, R157): it ends a transfer in AWAIT_CONTINUE; RELEASE ALL without parameters and a LEVEL asking
for VIEW in its layout are acted on, and every other one is ignored; no reply is made. -/
def Obligations.BroadcastsActed : Prop :=
  ∀ (s : State) (c : RxChar) (payload : List Byte), s.finalByte c = some (.broadcast payload) →
    ∀ u, u = s.endFrame.endTransfer →
      (payload = [0x21] → exec (.broadcastRequest c) s = .next { u with forces := [] })
      ∧ (∀ hi lo, payload = [0x04, 0x00, hi, lo] →
          exec (.broadcastRequest c) s = .next { u with forces := [], lease := ⟨.view, none, 0, .stopped⟩ })
      ∧ (payload ≠ [0x21] → (∀ hi lo, payload ≠ [0x04, 0x00, hi, lo]) →
          exec (.broadcastRequest c) s = .next u)

/-- A CONTINUE (R159, R162): to this node it renews the lease, and in AWAIT_CONTINUE the same segment, the next one, or
the FORMAT reply with which the transfer ends is to be sent; to node 15 it is ignored. The send field and what the
FORMAT reply leaves are the model's reading (log entry 14). -/
def Obligations.ContinueServed : Prop :=
  ∀ (s : State) (c : RxChar) (segment last nx : Nat), s.LinkOk →
    ∀ v, v = { s with
        rx := { s.rx with state := .hunt }, lease := s.lease.renew,
        exch := { s.exch with state := if s.exch.state = .receiving then .idle else s.exch.state } } →
    ∀ p, p = (if s.lease.level = .view then { s.lease with cond := .stopped }
        else { s.lease with remaining := s.lease.granted.getD 0 * 100000, cond := .paused }) →
    (s.finalByte c = some (.cont true segment) → s.exch.state = .awaitContinue →
      s.exch.lastSent = some last → s.exch.nextIndex = some nx →
      (segment = last → exec (.continueFrame c) s = .next { v with
          exch := { s.exch with state := .sending, send := some (.segment (nx - 1)) }, lease := p })
      ∧ (segment ≠ last → segment = (last + 1) % 16 → exec (.continueFrame c) s = .next { v with
          exch := { s.exch with state := .sending, send := some (.segment nx), nextIndex := some (nx + 1) }, lease := p })
      ∧ (segment ≠ last → segment ≠ (last + 1) % 16 → exec (.continueFrame c) s = .next { v with
          exch := { Exchange.reset with
            state := .sending, code := s.exch.code, faults := s.exch.faults, send := some .formatReply },
          lease := p,
          bankA := if s.exch.bank = some .a ∧ s.bankA.state = .sending then { s.bankA with state := .ready } else s.bankA,
          bankB := if s.exch.bank = some .b ∧ s.bankB.state = .sending then { s.bankB with state := .ready } else s.bankB }))
    ∧ (s.finalByte c = some (.cont true segment) → s.exch.state ≠ .awaitContinue → s.leaseOk = true →
        exec (.continueFrame c) s = .next v)
    ∧ (s.finalByte c = some (.cont false segment) → s.leaseOk = true →
        exec (.continueFrame c) s = .next { v with lease := s.lease })

/-- A break (R148, R163): the frame under assembly is dropped without a fault, the receiver awaits mark, and the
exchange ends in IDLE, with LDE low and a bank under transfer back to READY. While a PEEK or SYNC executes its record is
abandoned (R86): the WAITING READs leave the queue, an ACTIVE READ stays with its word to be dropped, and every other
operation stays. The mark on an ACTIVE READ is the model's way to drop its word (log entry 13). -/
def Obligations.BreakEndsExchange : Prop :=
  ∀ s : State,
    (s.sysrstn = true → s.rx.awaitMark = false → s.LinkOk →
      ∀ u, u = (if s.exch.state = .executing then { s with rx := ⟨.hunt, true⟩ }.abandonRecord
          else { s with rx := ⟨.hunt, true⟩ }) →
        (s.exch.state = .idle → exec .breakLine s = .next u)
        ∧ (s.exch.state ≠ .idle → exec .breakLine s = .next { u with
          exch := { Exchange.reset with faults := s.exch.faults },
          lease := { s.lease with cond := if s.lease.level = .view then .stopped else .running },
          bankA := if s.exch.bank = some .a ∧ s.bankA.state = .sending then { s.bankA with state := .ready } else s.bankA,
          bankB := if s.exch.bank = some .b ∧ s.bankB.state = .sending then { s.bankB with state := .ready } else s.bankB }))
    ∧ (∀ results : List (Option Word), s.completion = some (.peek results) → s.queueOk = true → s.PathOk →
        (∀ o rest, s.ops = o :: rest → (o.origin ≠ .peek ∨ o.active = true) →
          s.abandonRecord = { s with
            completion := none,
            ops := { o with dropped := o.dropped || decide (o.origin = .peek) }
              :: rest.filter (fun x => x.origin ≠ .peek) })
        ∧ ((∀ o ∈ s.ops, o.origin = .peek ∧ o.active = false) →
          s.abandonRecord = { s with completion := none, ops := [], arb := { s.arb with waitQ := false } }))
    ∧ (s.completion = some .sync → s.abandonRecord = { s with completion := none })

/-- The part's frames (R146, R152, R156, R123): at the start LDE rises with the frame on LTX and a frame under assembly
is discarded; when the frame has been sent LDE falls, and after the final REPLY or the FORMAT reply the exchange is
IDLE, the bank of a readout SENT, while after a PART it is AWAIT_CONTINUE from time 0. The send field is the model's
(log entry 14). -/
def Obligations.FramesTransmitted : Prop :=
  ∀ s : State, s.LinkOk → s.exch.state = .sending →
    let running : Lease := { s.lease with cond := if s.lease.level = .view then .stopped else .running }
    (s.exch.lde = false → s.rx.state = .hunt →
        exec .frameTransmitStart s = .next { s with exch := { s.exch with lde := true, ltx := s.outgoing } })
    ∧ (∀ f, s.exch.lde = false → s.rx.state = .assembling f → exec .frameTransmitStart s = .next { s with
        rx := { s.rx with state := .hunt }, latched := { s.latched with linkFault := true },
        exch := { s.exch with
          lde := true, ltx := s.outgoing,
          faults := if s.exch.faults < 255 then s.exch.faults + 1 else s.exch.faults } })
    ∧ (∀ k n, s.exch.lde = true → s.exch.send = some (.segment k) → s.exch.segCount = some n →
        (k + 1 ≠ n → exec .frameSent s = .next { s with
          lease := running,
          exch := { s.exch with
            state := .awaitContinue, lastSent := some (k % 16), contTime := some 0, send := none, lde := false,
            ltx := none } })
        ∧ (k + 1 = n → exec .frameSent s = .next { s with
          lease := running, exch := { Exchange.reset with faults := s.exch.faults },
          bankA := if s.exch.bank = some .a ∧ s.bankA.state = .sending then { s.bankA with state := .sent } else s.bankA,
          bankB := if s.exch.bank = some .b ∧ s.bankB.state = .sending then { s.bankB with state := .sent } else s.bankB }))
    ∧ (s.exch.lde = true → s.exch.send = some .formatReply → exec .frameSent s = .next { s with
        lease := running, exch := { Exchange.reset with faults := s.exch.faults } })


/-! ## Requests -/

/-- A lookup (R23) answers the lowest-numbered enabled region that contains the address, or unmapped when none does. -/
def Obligations.LookupAnswers : Prop :=
  ∀ (regions : List Region) (a : Addr),
    let holds : Nat → Region → Prop := fun i r =>
      regions[i]? = some r ∧ r.enabled = true ∧ r.base.toNat ≤ a.toNat ∧ a.toNat ≤ r.limit.toNat
    (∀ i r, holds i r → (∀ j x, j < i → ¬ holds j x) → lookup regions a = .region i r.cls r.guard)
    ∧ ((∀ i r, ¬ holds i r) → lookup regions a = .unmapped)

/-- A REQUEST of length 0 is answered with echoed code 00H and status FORMAT (R155), and one whose code is none of the
code table's with that code and status UNKNOWN (R167); neither carries data or changes more than the taking does. The
exchange holds 00H as the code of an empty REQUEST, which is the model's reading (log entry 23). -/
def Obligations.UnknownAndEmpty : Prop :=
  ∀ (s : State) (c : RxChar),
    (s.Requests c [] → Replies (.emptyRequest c) s (s.takeRequest 0x00) 0x00 .format [])
    ∧ (∀ (code : Byte) (params : List Byte), s.Requests c (code :: params) →
        code.toNat ∉ [0x01, 0x02, 0x03, 0x04, 0x05, 0x10, 0x11, 0x12, 0x20, 0x21, 0x22, 0x30, 0x31, 0x32, 0x33, 0x34,
          0x38, 0x39, 0x40, 0x41, 0x50, 0x51, 0x58, 0x60, 0x61] →
        Replies (.unknownRequest c) s (s.takeRequest code) code .unknown [])

/-- PROBE (R171, R205): at every level its parameters come back as they stand with status OK, more than 62 of them give
FORMAT; nothing changes but what a taken frame changes, and a broadcast one is ignored. -/
def Obligations.ProbeEchoes : Prop :=
  ∀ (s : State) (c : RxChar) (params : List Byte),
    (s.Requests c (0x01 :: params) →
      (params.length ≤ 62 → Replies (.probe c) s (s.takeRequest 0x01) 0x01 .ok params
        ∧ (params.length + 65) / 64 = 1)
      ∧ (62 < params.length → Replies (.probe c) s (s.takeRequest 0x01) 0x01 .format [])
      ∧ (s.exch.state ≠ .awaitContinue → ∀ t, exec (.probe c) s = .next t →
          t = { s with rx := t.rx, exch := t.exch, lease := t.lease }))
    ∧ (s.finalByte c = some (.broadcast (0x01 :: params)) →
        exec (.broadcastRequest c) s = .next s.endFrame.endTransfer)

/-- IDENTIFY (R204): eleven fixed bytes and the node as strapped, at every level; FORMAT with parameters; ignored when
broadcast; and no command but the rise of SYSRSTN changes the strapped node. -/
def Obligations.IdentifyReports : Prop :=
  ∀ (s : State) (c : RxChar),
    (s.Requests c [0x02] → Replies (.identify c) s (s.takeRequest 0x02) 0x02 .ok
      [0x0A, 0x52, 0x01, BitVec.ofNat 8 s.strapNode.toNat, 8, 32, 32, 64, 0x01, 0x00, 16])
    ∧ (∀ params, params ≠ [] → s.Requests c (0x02 :: params) →
        Replies (.identify c) s (s.takeRequest 0x02) 0x02 .format [])
    ∧ (∀ params, s.finalByte c = some (.broadcast (0x02 :: params)) →
        exec (.broadcastRequest c) s = .next s.endFrame.endTransfer)
    ∧ (∀ i t, (∀ node rate space, i ≠ .sysrstnRise node rate space) → exec i s = .next t →
        t.strapNode = s.strapNode)

/-- FORCE LIST (R57, R180), WATCH LIST (R105, R182) and REGION LIST (R37, R186) answer with the table as it stands in the
layout of R193, and with FORMAT where any byte follows the code. -/
def Obligations.TablesListed : Prop :=
  ∀ (s : State) (c : RxChar),
    (s.Requests c [0x22] → Replies (.forceList c) s (s.takeRequest 0x22) 0x22 .ok
      (field 1 s.forces.length
        ++ s.forces.flatMap (fun e => field 3 e.addr.toNat ++ field 2 e.set.toNat ++ field 2 e.clr.toNat)))
    ∧ (s.Requests c [0x32] → s.WatchOk → Replies (.watchList c) s (s.takeRequest 0x32) 0x32 .ok
      (field 2 s.watch.generation.toNat ++ codeIn modes s.watch.mode ++ field 1 s.watch.items.length
        ++ field 2 s.watch.elements.length ++ s.watch.items.flatMap WatchItem.bytes))
    ∧ (s.Requests c [0x51] → s.RegionsOk → Replies (.regionList c) s (s.takeRequest 0x51) 0x51 .ok
      ((List.range 8).flatMap (fun n => (s.regions[n]?.toList).flatMap (fun r =>
        field 1 n ++ field 1 (r.enabled.toNat + 2 * r.guard.toNat) ++ field 3 r.base.toNat ++ field 3 r.limit.toNat
          ++ codeIn classes r.cls))))
    ∧ (∀ params, params ≠ [] →
      (s.Requests c (0x22 :: params) → Replies (.forceList c) s (s.takeRequest 0x22) 0x22 .format [])
      ∧ (s.Requests c (0x32 :: params) → Replies (.watchList c) s (s.takeRequest 0x32) 0x32 .format [])
      ∧ (s.Requests c (0x51 :: params) → Replies (.regionList c) s (s.takeRequest 0x51) 0x51 .format []))

/-- STATUS (R203, R194): 23 bytes of the values as they stand at the taking. The lease remaining is the granted duration,
which the frame has just renewed, and 0 at VIEW (R73); no bank is SENDING, since the taking has ended a transfer (R120). -/
def Obligations.StatusReported : Prop :=
  ∀ (s : State) (c : RxChar), s.leaseOk = true →
    ∀ u, u = s.takeRequest 0x03 →
      (s.Requests c [0x03] → Replies (.status c) s u 0x03 .ok
        (codeIn levels s.lease.level ++ field 2 (if s.lease.level = .view then 0 else s.lease.granted.getD 0)
          ++ field 1 s.ctlrun.toNat ++ field 1 s.latched.maskValue ++ field 1 s.enabled.maskValue
          ++ field 1 s.forces.length ++ field 1 s.ops.length ++ codeIn modes s.watch.mode
          ++ field 1 s.watch.items.length ++ field 2 s.watch.elements.length ++ field 2 s.watch.generation.toNat
          ++ codeIn bankStates u.bankA.state ++ codeIn bankStates u.bankB.state ++ field 1 s.missed
          ++ codeIn supStates s.sup.state ++ field 2 s.sup.seq.toNat ++ field 1 s.guardLog.records.length
          ++ field 1 s.guardLog.dropped ++ field 1 s.exch.faults))
      ∧ (s.Requests c [0x03] → s.LinkOk → s.banksOk = true → u.bankA.state ≠ .sending ∧ u.bankB.state ≠ .sending)
      ∧ (∀ params, params ≠ [] → s.Requests c (0x03 :: params) → Replies (.status c) s u 0x03 .format [])

/-- LEVEL (R62, R63, R64, R173): TUNE and SERVICE with a duration of 1 to 600 give a new lease, PAUSED while the part holds
the turn; VIEW, with any duration, empties the force table and stops the lease; every other payload fails FORMAT. -/
def Obligations.LevelGranted : Prop :=
  ∀ (s : State) (c : RxChar) (params : List Byte), s.Requests c (0x04 :: params) →
    ∀ u, u = s.takeRequest 0x04 →
      (∀ lv d, (lv = .tune ∨ lv = .service) → 1 ≤ d → d ≤ 600 → params = codeIn levels lv ++ field 2 d →
        Replies (.level c) s { u with lease := ⟨lv, some d, d * 100000, .paused⟩ } 0x04 .ok [])
      ∧ (∀ d, d < 65536 → params = codeIn levels .view ++ field 2 d →
        Replies (.level c) s { u with lease := ⟨.view, none, 0, .stopped⟩, forces := [] } 0x04 .ok [])
      ∧ ((∀ lv d, (lv = .view ∨ (1 ≤ d ∧ d ≤ 600)) → d < 65536 → params ≠ codeIn levels lv ++ field 2 d) →
        Replies (.level c) s u 0x04 .format [])

/-- SESSION CLEAR (R72, R87, R106, R129, R174): the level is VIEW and the lease and force table are as at VIEW, the WAITING
operations leave the queue, the watch list is empty and OFF with its generation advanced, the fill is abandoned, both banks
are EMPTY and the missed count 0; nothing else changes. What an EMPTY bank holds is the model's choice (log entry 16). With
parameters it fails FORMAT, and broadcast it is ignored. RELEASE ALL (R56, R179) empties the force table alone. -/
def Obligations.SessionCleared : Prop :=
  ∀ (s : State) (c : RxChar) (params : List Byte),
    (∀ u, u = s.takeRequest 0x05 →
      (s.Requests c [0x05] → Replies (.sessionClear c) s { u with
        lease := ⟨.view, none, 0, .stopped⟩, forces := [], ops := s.ops.filter (fun o => o.active),
        arb := { s.arb with waitF := false, waitQ := false },
        watch := ⟨[], [], s.watch.generation + 1, .off⟩, fill := none, missed := 0, bankA := Bank.empty,
        bankB := Bank.empty } 0x05 .ok [])
      ∧ (params ≠ [] → s.Requests c (0x05 :: params) → Replies (.sessionClear c) s u 0x05 .format [])
      ∧ (s.finalByte c = some (.broadcast (0x05 :: params)) →
          exec (.broadcastRequest c) s = .next s.endFrame.endTransfer))
    ∧ (∀ u, u = s.takeRequest 0x21 →
      (s.Requests c [0x21] → Replies (.releaseAll c) s { u with forces := [] } 0x21 .ok [])
      ∧ (params ≠ [] → s.Requests c (0x21 :: params) → Replies (.releaseAll c) s u 0x21 .format []))

/-- Operations that join an empty queue (R75, R76, R83): ABSENT ones at the front retire at once, a READ giving 0000H; the
next holds its classification and Q waits, with a decision at a port that is free, unreserved and without a waiting
claimant (R15); with none left a completion record is satisfied, and its reply carries a PEEK's words in order. -/
def Obligations.EmptyQueueJoined : Prop :=
  ∀ (s : State) (gone : List Operation), s.ops = [] → s.arb.waitQ = false →
    (∀ g ∈ gone, g.cls = none ∧ (lookup s.regions g.addr).isAbsent = true) →
    ∀ r, r = gone.foldl (fun r g => handOn r g 0) s.completion →
      (∀ nx rest u, nx.cls = none → nx.active = false → (lookup s.regions nx.addr).isAbsent = false →
        u = { s with
          ops := { nx with cls := some (lookup s.regions nx.addr) } :: rest, completion := r,
          arb := { s.arb with waitQ := true } } →
        s.enqueue (gone ++ nx :: rest) =
          (if s.arb.grant = none ∧ s.arb.reservation = none ∧ s.arb.waitC = false ∧ s.arb.waitF = false then
            u.decideGrant else u))
      ∧ (r = none → s.enqueue gone = { s with completion := none })
      ∧ (∀ code u, s.exch.code = some code → u = { s with completion := none, lease := s.lease.follow .sending } →
        (r = some .sync → u.Answers (s.enqueue gone) code .ok [])
        ∧ (∀ words : List Word, r = some (.peek (words.map some)) →
            u.Answers (s.enqueue gone) code .ok (words.flatMap (fun w => field 2 w.toNat))))

/-- PEEK (R84, R175, R26) makes its completion record and queues a READ for each word, or fails FORMAT, RANGE or QUEUE_FULL
in that order. SYNC (R85, R177) makes its record and waits for an empty queue: at one it is answered at once. -/
def Obligations.PeekAndSyncTaken : Prop :=
  ∀ (s : State) (c : RxChar) (params : List Byte),
    (s.Requests c (0x10 :: params) → ∀ u, u = s.takeRequest 0x10 →
      (∀ a n, 1 ≤ n → n ≤ 32 → params = peekLayout a n →
        ((∃ k, k < n ∧ ¬ Named s.regions (a.toNat + k)) → Replies (.peek c) s u 0x10 .range [])
        ∧ ((∀ k, k < n → Named s.regions (a.toNat + k)) →
          (32 < s.ops.length + n → Replies (.peek c) s u 0x10 .queueFull [])
          ∧ (s.ops.length + n ≤ 32 → exec (.peek c) s = .next
              ({ u with completion := some (.peek (List.replicate n none)) }.enqueue
                ((List.range n).map (fun k =>
                  (⟨.read k, a + BitVec.ofNat 20 k, .peek, false, none, false⟩ : Operation)))))))
      ∧ ((∀ a n, 1 ≤ n → n ≤ 32 → params ≠ peekLayout a n) → Replies (.peek c) s u 0x10 .format []))
    ∧ (∀ u, u = s.takeRequest 0x12 →
      (s.Requests c [0x12] → s.ops = [] → Replies (.sync c) s { u with completion := none } 0x12 .ok [])
      ∧ (s.Requests c [0x12] → s.ops ≠ [] → exec (.sync c) s = .next { u with completion := some .sync })
      ∧ (params ≠ [] → s.Requests c (0x12 :: params) → Replies (.sync c) s u 0x12 .format []))

/-- POKE (R82, R176, R26, R60): the checks in the order FORMAT, LEVEL, RANGE, CLASS, RUNNING, QUEUE_FULL, each over all words;
one that passes queues a WRITE for each word in ascending address order and is answered OK at once. -/
def Obligations.PokeTaken : Prop :=
  ∀ (s : State) (c : RxChar) (params : List Byte), s.Requests c (0x11 :: params) →
    ∀ u, u = s.takeRequest 0x11 →
      (∀ a ws, 1 ≤ ws.length → ws.length ≤ 24 → params = pokeLayout a ws →
        let some1 : (Option RegionClass → Prop) → Prop := fun p => ∃ k, k < ws.length ∧ p (classAt s.regions (a.toNat + k))
        (s.lease.level = .view → Replies (.poke c) s u 0x11 .level [])
        ∧ (s.lease.level ≠ .view →
          ((∃ k, k < ws.length ∧ ¬ Named s.regions (a.toNat + k)) → Replies (.poke c) s u 0x11 .range [])
          ∧ ((∀ k, k < ws.length → Named s.regions (a.toNat + k)) →
            (s.lease.level = .tune ∧ some1 (fun k => k = some .input ∨ k = some .program) →
              Replies (.poke c) s u 0x11 .cls [])
            ∧ (s.lease.level = .service ∧ s.ctlrun = true ∧ some1 (fun k => k = some .program) →
              Replies (.poke c) s u 0x11 .running [])
            ∧ (¬ (s.lease.level = .tune ∧ some1 (fun k => k = some .input ∨ k = some .program)) →
                ¬ (s.lease.level = .service ∧ s.ctlrun = true ∧ some1 (fun k => k = some .program)) →
              (32 < s.ops.length + ws.length → Replies (.poke c) s u 0x11 .queueFull [])
              ∧ (s.ops.length + ws.length ≤ 32 → Replies (.poke c) s
                  (u.enqueue (ws.zipIdx.map (fun (w : Word × Nat) =>
                    (⟨.write w.1, a + BitVec.ofNat 20 w.2, .poke, false, none, false⟩ : Operation)))) 0x11 .ok [])))))
      ∧ ((∀ a ws, 1 ≤ ws.length → ws.length ≤ 24 → params ≠ pokeLayout a ws) → Replies (.poke c) s u 0x11 .format [])

/-- FORCE (R50, R51, R52, R178): the checks in the order FORMAT, LEVEL, RANGE, CLASS, FULL, QUEUE_FULL; one that passes changes
the table for all its words and queues a MODIFY with the pulse masks for each word of class OUTPUT, WORK or HOLD or with a
pulse bit, and is answered OK at once. -/
def Obligations.ForceTaken : Prop :=
  ∀ (s : State) (c : RxChar) (params : List Byte), s.Requests c (0x20 :: params) →
    ∀ u, u = s.takeRequest 0x20 →
      (∀ ws, ForceWellFormed ws → params = forceLayout ws →
        let cls : ForceWord → Option RegionClass := fun f => classAt s.regions f.addr.toNat
        let table := applyForce s.forces ws
        let commits : List Operation := (ws.filter (fun f =>
            decide (cls f ∈ [some .output, some .work, some .hold] ∨ f.pset ≠ 0 ∨ f.pclr ≠ 0))).map
          (fun f => ⟨.modify f.pset f.pclr, f.addr, .force, false, none, false⟩)
        (s.lease.level = .view → Replies (.force c) s u 0x20 .level [])
        ∧ (s.lease.level ≠ .view →
          ((∃ f ∈ ws, cls f = none) → Replies (.force c) s u 0x20 .range [])
          ∧ ((∀ f ∈ ws, cls f ≠ none) →
            ((∃ f ∈ ws, cls f = some .program ∨ cls f = some .absent) → Replies (.force c) s u 0x20 .cls [])
            ∧ ((∀ f ∈ ws, cls f ≠ some .program ∧ cls f ≠ some .absent) →
              (32 < table.length → Replies (.force c) s u 0x20 .full [])
              ∧ (table.length ≤ 32 →
                (32 < s.ops.length + commits.length → Replies (.force c) s u 0x20 .queueFull [])
                ∧ (s.ops.length + commits.length ≤ 32 →
                    Replies (.force c) s ({ u with forces := table }.enqueue commits) 0x20 .ok []))))))
      ∧ ((∀ ws, ForceWellFormed ws → params ≠ forceLayout ws) → Replies (.force c) s u 0x20 .format [])

/-- The table after a FORCE (R51): each bit of a named word is held as its masks say and every other as before, an entry
stands exactly where a bit is held, and the table stays in ascending order with no bit in both masks (R39). -/
def Obligations.ForceMasks : Prop :=
  ∀ (s : State) (ws : List ForceWord), s.ForcesOk → ForceWellFormed ws →
    ∀ t, t = applyForce s.forces ws →
      (∀ f ∈ ws, ∀ i < 16, forcedAt (entryFor t f.addr) i =
        if f.fset.getLsbD i then some true else if f.fclr.getLsbD i then some false
        else if f.rel.getLsbD i then none else forcedAt (entryFor s.forces f.addr) i)
      ∧ (∀ a, (∀ f ∈ ws, f.addr ≠ a) → entryFor t a = entryFor s.forces a)
      ∧ (∀ a, entryFor t a = none ↔ ∀ i < 16, forcedAt (entryFor t a) i = none)
      ∧ t.Pairwise (fun x y => x.addr < y.addr) ∧ (∀ e ∈ t, e.set &&& e.clr = 0)

/-- WATCH DEFINE and WATCH APPEND (R91, R94, R97 to R100, R96, R181): the checks in the order FORMAT, RANGE, BUSY, FULL; one
that passes replaces or extends the list whole, its elements the expansion, the generation advanced, an empty list OFF. -/
def Obligations.WatchChanged : Prop :=
  ∀ (s : State) (c : RxChar) (params : List Byte),
    let judged : Instr → Byte → State → List WatchItem → List WatchItem → Prop := fun i code u items list =>
      let filling : Prop := s.bankA.state = .filling ∨ s.bankB.state = .filling
      let full : Prop := 64 < list.length ∨ 256 < (list.flatMap WatchItem.addresses).length
      ((∃ it ∈ items, ∃ n ∈ it.addresses, ¬ Named s.regions n) → Replies i s u code .range [])
      ∧ ((∀ it ∈ items, ∀ n ∈ it.addresses, Named s.regions n) →
        (filling → Replies i s u code .busy [])
        ∧ (¬ filling → full → Replies i s u code .full [])
        ∧ (¬ filling → ¬ full → Replies i s
            { u with watch := ⟨list, expandItems list, s.watch.generation + 1,
              if list = [] then .off else s.watch.mode⟩ } code .ok
            (field 2 (s.watch.generation.toNat + 1) ++ field 1 list.length
              ++ field 2 (list.flatMap WatchItem.addresses).length)))
    (s.Requests c (0x30 :: params) → ∀ u, u = s.takeRequest 0x30 →
      (∀ items, ItemsWellFormed items → params = itemsLayout items → judged (.watchDefine c) 0x30 u items items)
      ∧ ((∀ items, ItemsWellFormed items → params ≠ itemsLayout items) →
          Replies (.watchDefine c) s u 0x30 .format []))
    ∧ (s.Requests c (0x31 :: params) → ∀ u, u = s.takeRequest 0x31 →
      (∀ items, items ≠ [] → ItemsWellFormed items → params = itemsLayout items →
        judged (.watchAppend c) 0x31 u items (s.watch.items ++ items))
      ∧ ((∀ items, items ≠ [] → ItemsWellFormed items → params ≠ itemsLayout items) →
          Replies (.watchAppend c) s u 0x31 .format []))

/-- The expansion of a list of items (R93): the elements of an item come after those of the items before it, at the
addresses its kind gives, with its index, and there are no others. -/
def Obligations.ItemsExpand : Prop :=
  ∀ items : List WatchItem,
    let count : WatchItem → Nat := fun it => match it with
      | .bit _ _ => 1
      | .word _ => 1
      | .pair _ => 2
      | .block _ n _ => n
      | .grid _ n _ g _ => g * n
    (expandItems items).length = (items.map count).sum
    ∧ ∀ (k : Nat) (it : WatchItem), items[k]? = some it →
        let first := ((items.take k).map count).sum
        let stands : Nat → Nat → Prop := fun j a => (expandItems items)[first + j]? = some ⟨BitVec.ofNat 20 a, k⟩
        match it with
        | .bit b _ => stands 0 b.toNat
        | .word b => stands 0 b.toNat
        | .pair b => stands 0 b.toNat ∧ stands 1 (b.toNat + 1)
        | .block b n st => ∀ i < n, stands i (b.toNat + i * st)
        | .grid b n st g gs => ∀ h < g, ∀ i < n, stands (h * n + i) (b.toNat + h * gs + i * st)

/-- WATCH ARM and WATCH STOP (R102, R103, R183): the mode alone changes; an empty list gives CONFLICT and any other payload
FORMAT; a fill in flight refuses neither. -/
def Obligations.WatchArmed : Prop :=
  ∀ (s : State) (c : RxChar) (params : List Byte),
    (s.Requests c (0x33 :: params) → ∀ u, u = s.takeRequest 0x33 →
      (∀ m : WatchMode, m ≠ .off → params = codeIn modes m →
        (s.watch.items = [] → Replies (.watchArm c) s u 0x33 .conflict [])
        ∧ (s.watch.items ≠ [] → Replies (.watchArm c) s { u with watch := { s.watch with mode := m } } 0x33 .ok []))
      ∧ ((∀ m : WatchMode, m ≠ .off → params ≠ codeIn modes m) → Replies (.watchArm c) s u 0x33 .format []))
    ∧ (∀ u, u = s.takeRequest 0x34 →
      (s.Requests c [0x34] → Replies (.watchStop c) s { u with watch := { s.watch with mode := .off } } 0x34 .ok [])
      ∧ (params ≠ [] → s.Requests c (0x34 :: params) → Replies (.watchStop c) s u 0x34 .format []))

/-- SNAP READ and SNAP ACK (R122, R125, R184, R121). SNAP READ sends a SENT bank, else the READY one, of two the first in fill
order, which becomes SENDING and is under transfer; SNAP ACK frees the SENT bank, and the other becomes first. Where there is
none they answer NONE_READY, and a wrong payload FORMAT. What an EMPTY bank holds is the model's choice (log entry 16). -/
def Obligations.SnapshotsRead : Prop :=
  ∀ (s : State) (c : RxChar) (params : List Byte), s.banksOk = true →
    (s.Requests c (0x38 :: params) → ∀ u, u = s.takeRequest 0x38 →
      (∀ (i : BankId) (map : Bool), params = field 1 map.toNat →
        ((u.bank i).state = .sent ∨ ((u.bank i).state = .ready ∧ (u.bank i.other).state ≠ .sent
          ∧ ((u.bank i.other).state = .ready → (u.bank i).second = false)) →
          Replies (.snapRead c) s { u.setBank i { u.bank i with state := .sending } with
            exch := { u.exch with bank := some i } } 0x38 .ok ((u.bank i).readout map)))
      ∧ (∀ map : Bool, params = field 1 map.toNat →
          (∀ i, (u.bank i).state ≠ .sent ∧ (u.bank i).state ≠ .ready) → Replies (.snapRead c) s u 0x38 .noneReady [])
      ∧ ((∀ map : Bool, params ≠ field 1 map.toNat) → Replies (.snapRead c) s u 0x38 .format []))
    ∧ (∀ u, u = s.takeRequest 0x39 →
      (s.Requests c [0x39] →
        (∀ i, (u.bank i).state = .sent → Replies (.snapAck c) s
          ((u.setBank i Bank.empty).setBank i.other { u.bank i.other with second := false }) 0x39 .ok [])
        ∧ ((∀ i, (u.bank i).state ≠ .sent) → Replies (.snapAck c) s u 0x39 .noneReady []))
      ∧ (params ≠ [] → s.Requests c (0x39 :: params) → Replies (.snapAck c) s u 0x39 .format []))

/-- The bytes of a readout (R126 to R128, R196, R197): the header of 26 bytes, the values of the items in order, a BIT item's
bit as one byte and every other element as two, and, where it is asked for, the map with the flag of element e in bit e
modulo 8 of byte e / 8 and unused bits 0. Its hypotheses are clauses of Bank.ok, which every step keeps (BanksKept). -/
def Obligations.ReadoutLayout : Prop :=
  ∀ (b : Bank) (map : Bool),
    b.words.length = 256 → b.flags.length = 256 → b.header.elementCount ≤ 256 →
    (b.layout.map (fun l => l.count)).sum = b.header.elementCount → (∀ l ∈ b.layout, l.bit ≠ none → l.count = 1) →
    let n := b.header.elementCount
    let size : LayoutItem → Nat := fun l => if l.bit = none then 2 * l.count else 1
    let values := (b.layout.map size).sum
    ∃ v m : List Byte, v.length = values ∧ m.length = (n + 7) / 8
      ∧ b.readout map = field 1 26 ++ codeIn [BankId.a, BankId.b] b.header.bank ++ field 1 b.header.forcedPresent.toNat
          ++ field 1 b.header.period.isSome.toNat ++ field 2 b.header.generation.toNat ++ field 2 b.header.seq.toNat
          ++ field 4 b.header.time.toNat ++ field 4 (b.header.period.getD 0).toNat ++ field 1 b.header.missed
          ++ field 2 b.header.itemCount ++ field 2 n ++ field 2 values ++ field 1 ((n + 7) / 8)
          ++ field 2 (26 + values) ++ v ++ (if map then m else [])
      ∧ (∀ (k : Nat) (l : LayoutItem), b.layout[k]? = some l →
          let first := ((b.layout.take k).map (fun l => l.count)).sum
          let place := ((b.layout.take k).map size).sum
          (∀ i, l.bit = some i → ∃ w, b.words[first]? = some w
            ∧ v[place]? = some (BitVec.ofNat 8 (w.getLsbD i.toNat).toNat))
          ∧ (l.bit = none → ∀ j < l.count, ∃ w, b.words[first + j]? = some w
            ∧ v[place + 2 * j]? = some (BitVec.ofNat 8 (w.toNat / 256))
            ∧ v[place + 2 * j + 1]? = some (BitVec.ofNat 8 w.toNat)))
      ∧ (∀ e, e < 8 * m.length → ∃ x, m[e / 8]? = some x
          ∧ x.getLsbD (e % 8) = decide (e < n ∧ b.flags[e]? = some true))

/-- SCAN CONFIG (R142, R185): the checks in the order FORMAT, LEVEL, CONFLICT; one that passes replaces the configuration and
restarts the supervisor, keeping the sequence, the last marker time and the statistics. -/
def Obligations.ScanConfigured : Prop :=
  ∀ (s : State) (c : RxChar) (params : List Byte), s.Requests c (0x40 :: params) →
    ∀ u, u = s.takeRequest 0x40 →
      (∀ m limit x, ScanLayout m limit x params →
        (s.lease.level ≠ .service → Replies (.scanConfig c) s u 0x40 .level [])
        ∧ (s.lease.level = .service →
          ((∃ a, m = some a ∧ ¬ MarkerAt s.regions a) → Replies (.scanConfig c) s u 0x40 .conflict [])
          ∧ ((∀ a, m = some a → MarkerAt s.regions a) → Replies (.scanConfig c) s { u with
              sup := { s.sup with
                marker := m, limit := limit, action := x, elapsed := none,
                state := if s.ctlrun = true ∧ limit ≠ 0 ∧ m ≠ none then .waitingFirst else .inactive } } 0x40 .ok [])))
      ∧ ((∀ m limit x, ¬ ScanLayout m limit x params) → Replies (.scanConfig c) s u 0x40 .format [])

/-- SCAN STATS (R143, R185, R194, R195) answers with 26 bytes of the values as they stand, a value that is none as zeros with
its presence bit 0, and clears the minimum and maximum where it is asked to. LOG READ (R32, R187, R193) hands over the
records, oldest first, and the dropped count, and leaves the log empty. Each fails FORMAT on any other payload. -/
def Obligations.StatsAndLogRead : Prop :=
  ∀ (s : State) (c : RxChar) (params : List Byte),
    (s.Requests c (0x41 :: params) → ∀ u, u = s.takeRequest 0x41 →
      (∀ clear : Bool, params = field 1 clear.toNat →
        Replies (.scanStats c) s { u with sup := { s.sup with
            minPeriod := if clear then none else s.sup.minPeriod,
            maxPeriod := if clear then none else s.sup.maxPeriod } } 0x41 .ok
          (codeIn supStates s.sup.state
            ++ field 1 (s.sup.lastMarker.isSome.toNat + 2 * s.sup.lastPeriod.isSome.toNat
              + 4 * s.sup.minPeriod.isSome.toNat + 8 * s.sup.maxPeriod.isSome.toNat + 16 * s.sup.marker.isSome.toNat)
            ++ field 2 s.sup.seq.toNat ++ field 4 (s.sup.lastMarker.getD 0).toNat
            ++ field 4 (s.sup.lastPeriod.getD 0).toNat ++ field 4 (s.sup.minPeriod.getD 0).toNat
            ++ field 4 (s.sup.maxPeriod.getD 0).toNat ++ field 3 (s.sup.marker.getD 0).toNat
            ++ field 2 s.sup.limit.toNat ++ codeIn stallActions s.sup.action))
      ∧ ((∀ clear : Bool, params ≠ field 1 clear.toNat) → Replies (.scanStats c) s u 0x41 .format []))
    ∧ (∀ u, u = s.takeRequest 0x58 →
      (s.Requests c [0x58] → Replies (.logRead c) s { u with guardLog := ⟨[], 0⟩ } 0x58 .ok
        (field 1 s.guardLog.records.length ++ field 1 s.guardLog.dropped
          ++ s.guardLog.records.flatMap (fun r => field 3 r.addr.toNat ++ field 2 r.data.toNat
            ++ field 1 (r.lanes.lower.toNat + 2 * r.lanes.upper.toNat) ++ field 2 r.seq.toNat ++ field 4 r.time.toNat)))
      ∧ (params ≠ [] → s.Requests c (0x58 :: params) → Replies (.logRead c) s u 0x58 .format []))

/-- REGION SET (R35, R36, R186): the checks in the order FORMAT, LEVEL, BUSY, CONFLICT, where CONFLICT is a force held, a watch
element that would be unmapped or a marker address that would lose its region; one that passes replaces the record. -/
def Obligations.RegionSetTaken : Prop :=
  ∀ (s : State) (c : RxChar) (params : List Byte), s.Requests c (0x50 :: params) →
    ∀ u, u = s.takeRequest 0x50 →
      (∀ n r, RegionWellFormed n r → RegionLayout n r params →
        let table := s.regions.set n r
        let filling : Prop := s.bankA.state = .filling ∨ s.bankB.state = .filling
        let conflict : Prop := s.forces ≠ [] ∨ (∃ e ∈ s.watch.elements, lookup table e.addr = .unmapped)
          ∨ ∃ a, s.sup.marker = some a ∧ ¬ MarkerAt table a
        (s.lease.level ≠ .service → Replies (.regionSet c) s u 0x50 .level [])
        ∧ (s.lease.level = .service →
          (filling → Replies (.regionSet c) s u 0x50 .busy [])
          ∧ (¬ filling → conflict → Replies (.regionSet c) s u 0x50 .conflict [])
          ∧ (¬ filling → ¬ conflict → Replies (.regionSet c) s { u with regions := table } 0x50 .ok [])))
      ∧ ((∀ n r, RegionWellFormed n r → ¬ RegionLayout n r params) → Replies (.regionSet c) s u 0x50 .format [])

/-- ALERT CLEAR clears the latches its mask names and ALERT ENABLE writes the enables, bits 5 to 7 disregarded (R188, R201,
R202); any payload but one mask fails FORMAT and both are ignored when broadcast. ALERTN is driven low exactly while a source
is latched and enabled and SYSRSTN is high (R200). -/
def Obligations.AlertsWritten : Prop :=
  ∀ (s : State) (c : RxChar) (params : List Byte),
    (s.Requests c (0x60 :: params) → ∀ u, u = s.takeRequest 0x60 →
      (∀ m : Byte, params = [m] → Replies (.alertClear c) s { u with latched :=
          { snapReady := s.latched.snapReady && !m.getLsbD 0, guard := s.latched.guard && !m.getLsbD 1,
            leaseLost := s.latched.leaseLost && !m.getLsbD 2, stall := s.latched.stall && !m.getLsbD 3,
            linkFault := s.latched.linkFault && !m.getLsbD 4 } } 0x60 .ok [])
      ∧ (params.length ≠ 1 → Replies (.alertClear c) s u 0x60 .format []))
    ∧ (s.Requests c (0x61 :: params) → ∀ u, u = s.takeRequest 0x61 →
      (∀ m : Byte, params = [m] → Replies (.alertEnable c) s { u with enabled :=
          { snapReady := m.getLsbD 0, guard := m.getLsbD 1, leaseLost := m.getLsbD 2, stall := m.getLsbD 3,
            linkFault := m.getLsbD 4 } } 0x61 .ok [])
      ∧ (params.length ≠ 1 → Replies (.alertEnable c) s u 0x61 .format []))
    ∧ (∀ code, (code = 0x60 ∨ code = 0x61) → s.finalByte c = some (.broadcast (code :: params)) →
        exec (.broadcastRequest c) s = .next s.endFrame.endTransfer)
    ∧ (s.alertn = some false ↔ s.sysrstn = true ∧ ((s.latched.snapReady && s.enabled.snapReady) = true
        ∨ (s.latched.guard && s.enabled.guard) = true ∨ (s.latched.leaseLost && s.enabled.leaseLost) = true
        ∨ (s.latched.stall && s.enabled.stall) = true ∨ (s.latched.linkFault && s.enabled.linkFault) = true))

/-! ## What every step keeps -/

/-- Every step answers a next state, and every step keeps the canonical form of memory. This is about the model's own form: a
queue that idles when empty, commands whose event cannot occur, and the RAM held as bytes of which none that reads as
nothing written is listed (log entries 1, 2, 6, 7). -/
def Obligations.MemoryFormKept : Prop :=
  ∀ s : State, (∃ t, step s = .next t) ∧ (s.mem.wf → ∀ t, step s = .next t → t.mem.wf)

/-- Every step keeps the tables (R21, R30, R31, R39, R40, R134): eight valid region records, a Guard Log within its limits, a
Force Table in ascending order within its capacity with every entry in a forcible region, and a marker where it may lie. -/
def Obligations.TablesKept : Prop :=
  ∀ s t : State, step s = .next t →
    s.RegionsOk → s.GuardLogOk → s.ForcesOk → s.ForcesPlaced → s.MarkerPlaced →
    t.RegionsOk ∧ t.GuardLogOk ∧ t.ForcesOk ∧ t.ForcesPlaced ∧ t.MarkerPlaced

/-- Every step keeps what holds of the lease, whose table is empty at VIEW and whose condition follows the turn (R59, R61,
R65), of the Operation Queue (R74 to R76), and of the Watch List, whose elements are its items' expansion (R92 to R94). Where
the mark on an abandoned READ may stand is the model's (log entry 13). -/
def Obligations.SessionKept : Prop :=
  ∀ s t : State, step s = .next t →
    (s.leaseOk = true → t.leaseOk = true) ∧ (s.queueOk = true → t.queueOk = true) ∧ (s.WatchOk → t.WatchOk)

/-- Every step keeps what holds of the link (R150 to R154, R83), of the Scan Supervisor (R133, R136, R138), and that while
SYSRSTN is low every block stands at its reset values (R19, R20). What the send field holds, with no reply and no bank beside
a FORMAT reply, and that PEEK and SYNC alone stay EXECUTING, are the model's reading (log entries 14, 25). -/
def Obligations.LinkAndSupervisorKept : Prop :=
  ∀ s t : State, step s = .next t → s.LowOk →
    t.LowOk ∧ (s.LinkOk → t.LinkOk) ∧ (s.supervisorOk = true → t.supervisorOk = true)

/-- Every step from a coherent state keeps what holds of the access path (R5, R13 to R18): one grant at a time, which serves
the access, the fill or the head of the queue that claimed it; no claimant waits at a port that is free and unreserved; and
no write stands at memory over a word that a fill still needs (R117). That the held data of a disabled lane and of a read is
0, and that an ACTIVE access is a forwarded one, are the model's reading (log entries 15, 20). -/
def Obligations.PathKept : Prop := ∀ s t : State, s.Coherent → step s = .next t → t.PathOk

/-- Every step from a coherent state keeps what holds of the fill and the banks (R108 to R112, R119 to R123): at most one
bank FILLING, with a PENDING element, at most one SENDING or SENT, the fill order, and in every bank an item layout that
counts out its elements. What an EMPTY bank holds, and that it is first, are the model's choice (log entry 16). -/
def Obligations.BanksKept : Prop := ∀ s t : State, s.Coherent → step s = .next t → t.fillOk = true ∧ t.banksOk = true

/-- A snapshot is coherent (R108, R114 to R119, R129): at every step of a fill in flight each element stays CAPTURED with its
word, or stays PENDING with its memory word untouched, or is captured as memory held it with the frozen view overlaid; the
fill ends in a READY bank with every element captured, or is abandoned with its bank EMPTY. -/
def Obligations.SnapshotCoherent : Prop :=
  ∀ (s t : State) (f : Fill), s.Coherent → step s = .next t → s.fill = some f →
    let kept : Nat → Prop := fun n => (t.bank f.bank).words[n]? = (s.bank f.bank).words[n]?
    let taken : Nat → Element → Prop := fun n e => ∃ x, (t.bank f.bank).words[n]? = some x
      ∧ ∀ i < 16, x.getLsbD i = (forcedAt (entryFor f.frozen e.addr) i).getD ((s.mem.readWord e.addr).getLsbD i)
    (∀ g, t.fill = some g →
      g.bank = f.bank ∧ g.frozen = f.frozen ∧ t.watch.elements = s.watch.elements
      ∧ ∀ (n : Nat) (e : Element), s.watch.elements[n]? = some e →
        (f.states[n]? = some .captured → g.states[n]? = some .captured ∧ kept n)
        ∧ (f.states[n]? = some .pending →
          (g.states[n]? = some .pending ∧ t.mem.readWord e.addr = s.mem.readWord e.addr)
            ∨ (g.states[n]? = some .captured ∧ taken n e)))
    ∧ (t.fill = none →
      (t.bank f.bank).state = .empty
      ∨ ((t.bank f.bank).state = .ready ∧ t.latched.snapReady = true
        ∧ ∀ (n : Nat) (e : Element), s.watch.elements[n]? = some e →
          (f.states[n]? = some .captured → kept n) ∧ (f.states[n]? = some .pending → taken n e)))

/-- Memory changes only by a write under a grant (R5, R10, R18, R19, R29): at the address and in the lanes that stand at the
memory port, when the write reaches memory or SYSRSTN falls; and it is the write of the access in progress, to a word neither
ABSENT nor guarded, or that of the head of the queue. -/
def Obligations.MemoryWrittenByGrants : Prop :=
  ∀ (s t : State) (i : Instr) (rest : List Instr),
    s.pending = i :: rest → s.mem.wf → s.PathOk → step s = .next t → t.mem ≠ s.mem →
    ∃ h a d lanes,
      ((s.arb.grant = some ⟨h, .write⟩ ∧ s.mport = .writing a d lanes ∧ i ∈ [.controllerWriteReachesMemory,
            .writeOperationReachesMemory, .modifyWriteReachesMemory, .sysrstnFall])
        ∨ (s.arb.grant = some ⟨h, .captureRead d lanes⟩ ∧ s.mport = .reading a ∧ i = .sysrstnFall))
      ∧ (∀ k, t.mem.readByte k = if k = 2 * a.toNat ∧ lanes.lower = true then d.extractLsb' 0 8
          else if k = 2 * a.toNat + 1 ∧ lanes.upper = true then d.extractLsb' 8 8 else s.mem.readByte k)
      ∧ ((h = .c ∧ ∃ acc, s.port = .active acc ∧ acc.write = true ∧ acc.addr = a ∧ acc.lanes = lanes
            ∧ acc.cls.cls ≠ some .absent ∧ acc.cls.guarded = false)
        ∨ (h = .q ∧ ∃ o others, s.ops = o :: others ∧ o.addr = a ∧ ∀ n, o.kind ≠ .read n))

end
end

