-- ==== Sys2Proof/Laws/Banks.lean ====
section
/-! SUPPORT. What the place of a bank says, clause by clause, and what the Memory Port drives in each of its states. -/

namespace Sys2Proof.Machine

/-! ## A bank in its place -/

theorem Bank.layoutOk_iff (b : Bank) :
    b.layoutOk = true ↔ b.header.elementCount ≤ 256 ∧ b.layout.length = b.header.itemCount
      ∧ (b.layout.map (fun l => l.count)).sum = b.header.elementCount ∧ ∀ l ∈ b.layout, l.bit ≠ none → l.count = 1 := by
  simp only [Bank.layoutOk, Bool.and_eq_true, decide_eq_true_eq, and_assoc, List.all_eq_true, Bool.or_eq_true,
    Option.isNone_iff_eq_none, ne_eq, or_iff_not_imp_left]

theorem Bank.ok_iff (b : Bank) :
    b.ok = true ↔ b.words.length = 256 ∧ b.flags.length = 256 ∧ b.layoutOk = true ∧ (b.state = .empty → b = Bank.empty) := by
  simp only [Bank.ok, Bool.and_eq_true, Bool.or_eq_true, decide_eq_true_eq, and_assoc, ne_eq]
  tauto

/-- An EMPTY bank is in its place. -/
theorem Bank.ok_empty : Bank.empty.ok = true :=
  (Bank.ok_iff _).2 ⟨List.length_replicate, List.length_replicate, rfl, fun _ => rfl⟩

/-- A bank keeps its place under every change that keeps its lengths, its layout and the counts of its header, and does not
make it EMPTY. -/
theorem Bank.ok_of_same {b c : Bank} (h : b.ok = true) (hw : c.words.length = b.words.length)
    (hf : c.flags.length = b.flags.length) (hl : c.layout = b.layout)
    (he : c.header.elementCount = b.header.elementCount) (hi : c.header.itemCount = b.header.itemCount)
    (hs : c.state ≠ .empty) : c.ok = true := by
  rw [Bank.ok_iff, Bank.layoutOk_iff] at h ⊢
  rw [hw, hf, hl, he, hi]
  exact ⟨h.1, h.2.1, h.2.2.1, fun e => absurd e hs⟩

/-- Banks in their places: what State.banksOk says of each bank alone. -/
theorem State.bank_ok {s : State} (h : s.banksOk = true) (i : BankId) : (s.bank i).ok = true := by
  simp only [State.banksOk, Bool.and_eq_true] at h
  cases i
  · exact h.1.1.1.1.1.1.1.1
  · exact h.1.1.1.1.1.1.1.2

/-! ## The memory side -/

theorem State.memPins_idle {s : State} (h : s.mport = .idle) :
    s.memPins = ⟨true, true, true, none, none, none, none⟩ := by
  rw [State.memPins, h]

theorem State.memPins_reading {s : State} {a : Addr} (h : s.mport = .reading a) :
    s.memPins = ⟨false, false, true, some false, some false, some a, none⟩ := by
  rw [State.memPins, h]

theorem State.memPins_writing {s : State} {a : Addr} {d : Word} {lanes : Lanes} (h : s.mport = .writing a d lanes) :
    s.memPins = ⟨false, true, false, some (!lanes.upper), some (!lanes.lower), some a, some d⟩ := by
  rw [State.memPins, h]

end Sys2Proof.Machine
end

