-- ==== Sys2Proof/Laws/Memory.lean ====
section
/-! SUPPORT. The laws of the static RAM: a read after a write, other places unchanged, and the canonical form kept by every
memory operation. -/

namespace Sys2Proof.Machine

@[simp] theorem Memory.readByte_nil (n : Nat) : Memory.readByte [] n = Config.unwrittenByte := rfl

theorem Memory.readByte_cons (k : Nat) (b : Byte) (rest : Memory) (n : Nat) :
    Memory.readByte ((k, b) :: rest) n = if k = n then b else Memory.readByte rest n := rfl

/-- A key below every key of a memory reads as an unwritten byte. -/
theorem Memory.readByte_below (m : Memory) (n : Nat) (h : ∀ c ∈ m, n < c.1) :
    m.readByte n = Config.unwrittenByte := by
  induction m with
  | nil => rfl
  | cons c rest ih =>
    have hc : n < c.1 := h c (by simp)
    have hr := ih (fun d hd => h d (by simp [hd]))
    show (if c.1 = n then c.2 else Memory.readByte rest n) = _
    rw [if_neg (by omega), hr]

/-- Reading through Memory.consByte on a memory whose keys are all higher. -/
theorem Memory.readByte_consByte (m : Memory) (n k : Nat) (b : Byte) (h : ∀ c ∈ m, n < c.1) :
    (Memory.consByte n b m).readByte k = if k = n then b else m.readByte k := by
  unfold Memory.consByte
  by_cases hb : b = Config.unwrittenByte
  · rw [if_pos hb]
    by_cases hk : k = n
    · subst hk; rw [if_pos rfl, Memory.readByte_below m k h, hb]
    · rw [if_neg hk]
  · rw [if_neg hb, Memory.readByte_cons]
    by_cases hk : k = n
    · subst hk; simp
    · rw [if_neg hk, if_neg (fun hnk => hk hnk.symm)]

/-- A byte write: its key reads the byte, every other key as before. -/
theorem Memory.readByte_writeByte (m : Memory) (hm : m.Pairwise (fun x y => x.1 < y.1)) (n k : Nat) (b : Byte) :
    (m.writeByte n b).readByte k = if k = n then b else m.readByte k := by
  induction m with
  | nil => exact Memory.readByte_consByte [] n k b (by simp)
  | cons c rest ih =>
    obtain ⟨ck, cb⟩ := c
    rw [List.pairwise_cons] at hm
    have hrest := ih hm.2
    show (if n < ck then Memory.consByte n b ((ck, cb) :: rest)
      else if n = ck then Memory.consByte n b rest
      else (ck, cb) :: Memory.writeByte rest n b).readByte k = _
    by_cases h1 : n < ck
    · rw [if_pos h1]
      apply Memory.readByte_consByte
      intro d hd
      rcases List.mem_cons.mp hd with rfl | hd
      · exact h1
      · exact Nat.lt_trans h1 (hm.1 d hd)
    · rw [if_neg h1]
      by_cases h2 : n = ck
      · subst h2
        rw [if_pos rfl, Memory.readByte_consByte rest n k b hm.1, Memory.readByte_cons]
        by_cases hk : k = n
        · rw [if_pos hk, if_pos hk]
        · rw [if_neg hk, if_neg hk, if_neg (fun hnk => hk hnk.symm)]
      · rw [if_neg h2, Memory.readByte_cons, Memory.readByte_cons, hrest]
        by_cases hk : ck = k
        · subst hk
          rw [if_pos rfl, if_pos rfl, if_neg (fun h => h2 h.symm)]
        · rw [if_neg hk, if_neg hk]

/-- The cells of a memory after Memory.consByte are its own and at most the new one. -/
theorem Memory.mem_consByte (m : Memory) (n : Nat) (b : Byte) (c : Host.Cell) (h : c ∈ Memory.consByte n b m) :
    c ∈ m ∨ (c = (n, b) ∧ b ≠ Config.unwrittenByte) := by
  unfold Memory.consByte at h
  split at h
  · exact Or.inl h
  · rename_i hb
    rcases List.mem_cons.mp h with rfl | h
    · exact Or.inr ⟨rfl, hb⟩
    · exact Or.inl h

/-- The cells of a memory after a byte write are its own and at most the new one. -/
theorem Memory.mem_writeByte (m : Memory) (n : Nat) (b : Byte) (c : Host.Cell) (h : c ∈ m.writeByte n b) :
    c ∈ m ∨ (c = (n, b) ∧ b ≠ Config.unwrittenByte) := by
  induction m with
  | nil => exact Memory.mem_consByte [] n b c h
  | cons d rest ih =>
    obtain ⟨dk, db⟩ := d
    change c ∈ (if n < dk then Memory.consByte n b ((dk, db) :: rest)
      else if n = dk then Memory.consByte n b rest else (dk, db) :: Memory.writeByte rest n b) at h
    split at h
    · exact Memory.mem_consByte _ n b c h
    · split at h
      · rcases Memory.mem_consByte _ n b c h with h | h
        · exact Or.inl (List.mem_cons_of_mem _ h)
        · exact Or.inr h
      · rcases List.mem_cons.mp h with rfl | h
        · exact Or.inl (by simp)
        · rcases ih h with h | h
          · exact Or.inl (List.mem_cons_of_mem _ h)
          · exact Or.inr h

/-- Memory.consByte keeps the keys rising. -/
theorem Memory.consByte_sorted (m : Memory) (n : Nat) (b : Byte) (h : ∀ c ∈ m, n < c.1)
    (hm : m.Pairwise (fun x y => x.1 < y.1)) : (Memory.consByte n b m).Pairwise (fun x y => x.1 < y.1) := by
  unfold Memory.consByte
  split
  · exact hm
  · exact List.pairwise_cons.mpr ⟨h, hm⟩

/-- A byte write keeps the keys rising. -/
theorem Memory.writeByte_sorted (m : Memory) (n : Nat) (b : Byte) (hm : m.Pairwise (fun x y => x.1 < y.1)) :
    (m.writeByte n b).Pairwise (fun x y => x.1 < y.1) := by
  induction m with
  | nil => exact Memory.consByte_sorted [] n b (by simp) (by simp)
  | cons d rest ih =>
    obtain ⟨dk, db⟩ := d
    have hm' := List.pairwise_cons.mp hm
    show (if n < dk then Memory.consByte n b ((dk, db) :: rest)
      else if n = dk then Memory.consByte n b rest
      else (dk, db) :: Memory.writeByte rest n b).Pairwise (fun x y => x.1 < y.1)
    split
    · rename_i h1
      refine Memory.consByte_sorted _ n b ?_ hm
      intro c hc
      rcases List.mem_cons.mp hc with rfl | hc
      · exact h1
      · exact Nat.lt_trans h1 (hm'.1 c hc)
    · rename_i h1
      split
      · rename_i h2
        subst h2
        exact Memory.consByte_sorted rest n b hm'.1 hm'.2
      · rename_i h2
        refine List.pairwise_cons.mpr ⟨?_, ih hm'.2⟩
        intro c hc
        rcases Memory.mem_writeByte rest n b c hc with hc | ⟨rfl, -⟩
        · exact hm'.1 c hc
        · show dk < n; omega

/-- A byte write inside the address space keeps the canonical form. -/
theorem Memory.writeByte_wf (m : Memory) (n : Nat) (b : Byte) (hm : m.wf) (hn : n < 2 ^ 21) : (m.writeByte n b).wf := by
  refine ⟨Memory.writeByte_sorted m n b hm.1, ?_⟩
  intro c hc
  rcases Memory.mem_writeByte m n b c hc with hc | ⟨rfl, hb⟩
  · exact hm.2 c hc
  · exact ⟨hb, hn⟩

/-- The keys of a word lie inside the address space. -/
theorem laneKey_lt (a : Addr) : laneKey a + 1 < 2 ^ 21 := by
  have := a.isLt
  unfold laneKey
  omega

/-- A word write keeps the canonical form (R5). -/
theorem Memory.writeWord_wf (m : Memory) (a : Addr) (w : Word) (lanes : Lanes) (hm : m.wf) :
    (m.writeWord a w lanes).wf := by
  have ha := laneKey_lt a
  have hlow : (if lanes.lower then m.writeByte (laneKey a) (w.extractLsb' 0 8) else m).wf := by
    split
    · exact Memory.writeByte_wf m _ _ hm (by omega)
    · exact hm
  unfold Memory.writeWord
  simp only
  split
  · exact Memory.writeByte_wf _ _ _ hlow ha
  · exact hlow

/-- A word write, byte by byte (R5): an enabled lane takes its byte, and every other byte of memory keeps its content. -/
theorem Memory.readByte_writeWord (m : Memory) (hm : m.wf) (a : Addr) (w : Word) (lanes : Lanes) (k : Nat) :
    (m.writeWord a w lanes).readByte k =
      if k = laneKey a ∧ lanes.lower = true then w.extractLsb' 0 8
      else if k = laneKey a + 1 ∧ lanes.upper = true then w.extractLsb' 8 8
      else m.readByte k := by
  have h0 : (m.writeByte (laneKey a) (w.extractLsb' 0 8)).Pairwise (fun x y => x.1 < y.1) :=
    Memory.writeByte_sorted m _ _ hm.1
  obtain ⟨up, lo⟩ := lanes
  cases lo <;> cases up <;>
    simp [Memory.writeWord, Memory.readByte_writeByte, hm.1, h0]
  by_cases h1 : k = laneKey a + 1
  · subst h1; simp
  · simp [h1]

/-- Words at different addresses do not share a key. -/
theorem laneKey_inj (a b : Addr) (h : a ≠ b) : laneKey a ≠ laneKey b ∧ laneKey a ≠ laneKey b + 1 ∧ laneKey a + 1 ≠ laneKey b := by
  have hne : a.toNat ≠ b.toNat := fun he => h (BitVec.eq_of_toNat_eq he)
  unfold laneKey
  omega

/-- A word write leaves every other word as it was. -/
theorem Memory.readWord_writeWord_other (m : Memory) (hm : m.wf) (a b : Addr) (w : Word) (lanes : Lanes) (h : b ≠ a) :
    (m.writeWord a w lanes).readWord b = m.readWord b := by
  obtain ⟨h1, h2, h3⟩ := laneKey_inj b a h
  unfold Memory.readWord
  rw [Memory.readByte_writeWord m hm, Memory.readByte_writeWord m hm]
  simp [h1, h2, h3]

/-- A word write, read back: each enabled lane reads the word written, a disabled lane what it held (R5). -/
theorem Memory.readWord_writeWord_self (m : Memory) (hm : m.wf) (a : Addr) (w : Word) (lanes : Lanes) :
    (m.writeWord a w lanes).readWord a =
      (if lanes.upper then w.extractLsb' 8 8 else m.readByte (laneKey a + 1))
        ++ (if lanes.lower then w.extractLsb' 0 8 else m.readByte (laneKey a)) := by
  unfold Memory.readWord
  rw [Memory.readByte_writeWord m hm, Memory.readByte_writeWord m hm]
  simp

/-- The memory of device reset is in canonical form. -/
theorem Memory.nil_wf : Memory.wf [] := ⟨List.Pairwise.nil, by simp⟩

theorem State.reset_mem_wf : State.reset.mem.wf := Memory.nil_wf

end Sys2Proof.Machine
end

