-- ==== Sys2Proof/Laws/State.lean ====
section
/-! SUPPORT. The fields of State after each named update: one lemma for a field and an update, true by rfl. -/

namespace Sys2Proof.Machine

variable (s : State)


/-! ## releaseAll -/

/-! Release all changes the Force Table alone (R54). -/

@[simp] theorem State.releaseAll_pending : (s.releaseAll).pending = s.pending := rfl
@[simp] theorem State.releaseAll_sysrstn : (s.releaseAll).sysrstn = s.sysrstn := rfl
@[simp] theorem State.releaseAll_bus : (s.releaseAll).bus = s.bus := rfl
@[simp] theorem State.releaseAll_ctlrun : (s.releaseAll).ctlrun = s.ctlrun := rfl
@[simp] theorem State.releaseAll_strapNode : (s.releaseAll).strapNode = s.strapNode := rfl
@[simp] theorem State.releaseAll_strapRate : (s.releaseAll).strapRate = s.strapRate := rfl
@[simp] theorem State.releaseAll_mem : (s.releaseAll).mem = s.mem := rfl
@[simp] theorem State.releaseAll_port : (s.releaseAll).port = s.port := rfl
@[simp] theorem State.releaseAll_mport : (s.releaseAll).mport = s.mport := rfl
@[simp] theorem State.releaseAll_arb : (s.releaseAll).arb = s.arb := rfl
@[simp] theorem State.releaseAll_regions : (s.releaseAll).regions = s.regions := rfl
@[simp] theorem State.releaseAll_guardLog : (s.releaseAll).guardLog = s.guardLog := rfl
@[simp] theorem State.releaseAll_lease : (s.releaseAll).lease = s.lease := rfl
@[simp] theorem State.releaseAll_ops : (s.releaseAll).ops = s.ops := rfl
@[simp] theorem State.releaseAll_completion : (s.releaseAll).completion = s.completion := rfl
@[simp] theorem State.releaseAll_watch : (s.releaseAll).watch = s.watch := rfl
@[simp] theorem State.releaseAll_fill : (s.releaseAll).fill = s.fill := rfl
@[simp] theorem State.releaseAll_missed : (s.releaseAll).missed = s.missed := rfl
@[simp] theorem State.releaseAll_bankA : (s.releaseAll).bankA = s.bankA := rfl
@[simp] theorem State.releaseAll_bankB : (s.releaseAll).bankB = s.bankB := rfl
@[simp] theorem State.releaseAll_sup : (s.releaseAll).sup = s.sup := rfl
@[simp] theorem State.releaseAll_time : (s.releaseAll).time = s.time := rfl
@[simp] theorem State.releaseAll_rx : (s.releaseAll).rx = s.rx := rfl
@[simp] theorem State.releaseAll_exch : (s.releaseAll).exch = s.exch := rfl
@[simp] theorem State.releaseAll_latched : (s.releaseAll).latched = s.latched := rfl
@[simp] theorem State.releaseAll_enabled : (s.releaseAll).enabled = s.enabled := rfl
@[simp] theorem State.releaseAll_forces : (s.releaseAll).forces = [] := rfl

/-! ## renewLease -/

/-! A renewal changes the Lease Timer alone (R66). -/

@[simp] theorem State.renewLease_pending : (s.renewLease).pending = s.pending := rfl
@[simp] theorem State.renewLease_sysrstn : (s.renewLease).sysrstn = s.sysrstn := rfl
@[simp] theorem State.renewLease_bus : (s.renewLease).bus = s.bus := rfl
@[simp] theorem State.renewLease_ctlrun : (s.renewLease).ctlrun = s.ctlrun := rfl
@[simp] theorem State.renewLease_strapNode : (s.renewLease).strapNode = s.strapNode := rfl
@[simp] theorem State.renewLease_strapRate : (s.renewLease).strapRate = s.strapRate := rfl
@[simp] theorem State.renewLease_mem : (s.renewLease).mem = s.mem := rfl
@[simp] theorem State.renewLease_port : (s.renewLease).port = s.port := rfl
@[simp] theorem State.renewLease_mport : (s.renewLease).mport = s.mport := rfl
@[simp] theorem State.renewLease_arb : (s.renewLease).arb = s.arb := rfl
@[simp] theorem State.renewLease_regions : (s.renewLease).regions = s.regions := rfl
@[simp] theorem State.renewLease_guardLog : (s.renewLease).guardLog = s.guardLog := rfl
@[simp] theorem State.renewLease_forces : (s.renewLease).forces = s.forces := rfl
@[simp] theorem State.renewLease_ops : (s.renewLease).ops = s.ops := rfl
@[simp] theorem State.renewLease_completion : (s.renewLease).completion = s.completion := rfl
@[simp] theorem State.renewLease_watch : (s.renewLease).watch = s.watch := rfl
@[simp] theorem State.renewLease_fill : (s.renewLease).fill = s.fill := rfl
@[simp] theorem State.renewLease_missed : (s.renewLease).missed = s.missed := rfl
@[simp] theorem State.renewLease_bankA : (s.renewLease).bankA = s.bankA := rfl
@[simp] theorem State.renewLease_bankB : (s.renewLease).bankB = s.bankB := rfl
@[simp] theorem State.renewLease_sup : (s.renewLease).sup = s.sup := rfl
@[simp] theorem State.renewLease_time : (s.renewLease).time = s.time := rfl
@[simp] theorem State.renewLease_rx : (s.renewLease).rx = s.rx := rfl
@[simp] theorem State.renewLease_exch : (s.renewLease).exch = s.exch := rfl
@[simp] theorem State.renewLease_latched : (s.renewLease).latched = s.latched := rfl
@[simp] theorem State.renewLease_enabled : (s.renewLease).enabled = s.enabled := rfl
@[simp] theorem State.renewLease_lease : (s.renewLease).lease = s.lease.renew := rfl

/-! ## dropToView -/

/-! A fall to VIEW changes the Force Table and the Lease Timer (R61, R64). -/

@[simp] theorem State.dropToView_pending : (s.dropToView).pending = s.pending := rfl
@[simp] theorem State.dropToView_sysrstn : (s.dropToView).sysrstn = s.sysrstn := rfl
@[simp] theorem State.dropToView_bus : (s.dropToView).bus = s.bus := rfl
@[simp] theorem State.dropToView_ctlrun : (s.dropToView).ctlrun = s.ctlrun := rfl
@[simp] theorem State.dropToView_strapNode : (s.dropToView).strapNode = s.strapNode := rfl
@[simp] theorem State.dropToView_strapRate : (s.dropToView).strapRate = s.strapRate := rfl
@[simp] theorem State.dropToView_mem : (s.dropToView).mem = s.mem := rfl
@[simp] theorem State.dropToView_port : (s.dropToView).port = s.port := rfl
@[simp] theorem State.dropToView_mport : (s.dropToView).mport = s.mport := rfl
@[simp] theorem State.dropToView_arb : (s.dropToView).arb = s.arb := rfl
@[simp] theorem State.dropToView_regions : (s.dropToView).regions = s.regions := rfl
@[simp] theorem State.dropToView_guardLog : (s.dropToView).guardLog = s.guardLog := rfl
@[simp] theorem State.dropToView_ops : (s.dropToView).ops = s.ops := rfl
@[simp] theorem State.dropToView_completion : (s.dropToView).completion = s.completion := rfl
@[simp] theorem State.dropToView_watch : (s.dropToView).watch = s.watch := rfl
@[simp] theorem State.dropToView_fill : (s.dropToView).fill = s.fill := rfl
@[simp] theorem State.dropToView_missed : (s.dropToView).missed = s.missed := rfl
@[simp] theorem State.dropToView_bankA : (s.dropToView).bankA = s.bankA := rfl
@[simp] theorem State.dropToView_bankB : (s.dropToView).bankB = s.bankB := rfl
@[simp] theorem State.dropToView_sup : (s.dropToView).sup = s.sup := rfl
@[simp] theorem State.dropToView_time : (s.dropToView).time = s.time := rfl
@[simp] theorem State.dropToView_rx : (s.dropToView).rx = s.rx := rfl
@[simp] theorem State.dropToView_exch : (s.dropToView).exch = s.exch := rfl
@[simp] theorem State.dropToView_latched : (s.dropToView).latched = s.latched := rfl
@[simp] theorem State.dropToView_enabled : (s.dropToView).enabled = s.enabled := rfl
@[simp] theorem State.dropToView_forces : (s.dropToView).forces = [] := rfl
@[simp] theorem State.dropToView_lease : (s.dropToView).lease = Lease.view := rfl

/-! ## expireLease -/

/-! Expiry changes the Force Table, the Lease Timer and the latches (R67). -/

@[simp] theorem State.expireLease_pending : (s.expireLease).pending = s.pending := rfl
@[simp] theorem State.expireLease_sysrstn : (s.expireLease).sysrstn = s.sysrstn := rfl
@[simp] theorem State.expireLease_bus : (s.expireLease).bus = s.bus := rfl
@[simp] theorem State.expireLease_ctlrun : (s.expireLease).ctlrun = s.ctlrun := rfl
@[simp] theorem State.expireLease_strapNode : (s.expireLease).strapNode = s.strapNode := rfl
@[simp] theorem State.expireLease_strapRate : (s.expireLease).strapRate = s.strapRate := rfl
@[simp] theorem State.expireLease_mem : (s.expireLease).mem = s.mem := rfl
@[simp] theorem State.expireLease_port : (s.expireLease).port = s.port := rfl
@[simp] theorem State.expireLease_mport : (s.expireLease).mport = s.mport := rfl
@[simp] theorem State.expireLease_arb : (s.expireLease).arb = s.arb := rfl
@[simp] theorem State.expireLease_regions : (s.expireLease).regions = s.regions := rfl
@[simp] theorem State.expireLease_guardLog : (s.expireLease).guardLog = s.guardLog := rfl
@[simp] theorem State.expireLease_ops : (s.expireLease).ops = s.ops := rfl
@[simp] theorem State.expireLease_completion : (s.expireLease).completion = s.completion := rfl
@[simp] theorem State.expireLease_watch : (s.expireLease).watch = s.watch := rfl
@[simp] theorem State.expireLease_fill : (s.expireLease).fill = s.fill := rfl
@[simp] theorem State.expireLease_missed : (s.expireLease).missed = s.missed := rfl
@[simp] theorem State.expireLease_bankA : (s.expireLease).bankA = s.bankA := rfl
@[simp] theorem State.expireLease_bankB : (s.expireLease).bankB = s.bankB := rfl
@[simp] theorem State.expireLease_sup : (s.expireLease).sup = s.sup := rfl
@[simp] theorem State.expireLease_time : (s.expireLease).time = s.time := rfl
@[simp] theorem State.expireLease_rx : (s.expireLease).rx = s.rx := rfl
@[simp] theorem State.expireLease_exch : (s.expireLease).exch = s.exch := rfl
@[simp] theorem State.expireLease_enabled : (s.expireLease).enabled = s.enabled := rfl
@[simp] theorem State.expireLease_forces : (s.expireLease).forces = [] := rfl
@[simp] theorem State.expireLease_lease : (s.expireLease).lease = Lease.view := rfl
@[simp] theorem State.expireLease_latched : (s.expireLease).latched = s.latched.latch .leaseLost := rfl

/-! ## latch -/

/-! A cause changes the latches alone (R199). -/

@[simp] theorem State.latch_pending (src : AlertSource) : (s.latch src).pending = s.pending := rfl
@[simp] theorem State.latch_sysrstn (src : AlertSource) : (s.latch src).sysrstn = s.sysrstn := rfl
@[simp] theorem State.latch_bus (src : AlertSource) : (s.latch src).bus = s.bus := rfl
@[simp] theorem State.latch_ctlrun (src : AlertSource) : (s.latch src).ctlrun = s.ctlrun := rfl
@[simp] theorem State.latch_strapNode (src : AlertSource) : (s.latch src).strapNode = s.strapNode := rfl
@[simp] theorem State.latch_strapRate (src : AlertSource) : (s.latch src).strapRate = s.strapRate := rfl
@[simp] theorem State.latch_mem (src : AlertSource) : (s.latch src).mem = s.mem := rfl
@[simp] theorem State.latch_port (src : AlertSource) : (s.latch src).port = s.port := rfl
@[simp] theorem State.latch_mport (src : AlertSource) : (s.latch src).mport = s.mport := rfl
@[simp] theorem State.latch_arb (src : AlertSource) : (s.latch src).arb = s.arb := rfl
@[simp] theorem State.latch_regions (src : AlertSource) : (s.latch src).regions = s.regions := rfl
@[simp] theorem State.latch_guardLog (src : AlertSource) : (s.latch src).guardLog = s.guardLog := rfl
@[simp] theorem State.latch_forces (src : AlertSource) : (s.latch src).forces = s.forces := rfl
@[simp] theorem State.latch_lease (src : AlertSource) : (s.latch src).lease = s.lease := rfl
@[simp] theorem State.latch_ops (src : AlertSource) : (s.latch src).ops = s.ops := rfl
@[simp] theorem State.latch_completion (src : AlertSource) : (s.latch src).completion = s.completion := rfl
@[simp] theorem State.latch_watch (src : AlertSource) : (s.latch src).watch = s.watch := rfl
@[simp] theorem State.latch_fill (src : AlertSource) : (s.latch src).fill = s.fill := rfl
@[simp] theorem State.latch_missed (src : AlertSource) : (s.latch src).missed = s.missed := rfl
@[simp] theorem State.latch_bankA (src : AlertSource) : (s.latch src).bankA = s.bankA := rfl
@[simp] theorem State.latch_bankB (src : AlertSource) : (s.latch src).bankB = s.bankB := rfl
@[simp] theorem State.latch_sup (src : AlertSource) : (s.latch src).sup = s.sup := rfl
@[simp] theorem State.latch_time (src : AlertSource) : (s.latch src).time = s.time := rfl
@[simp] theorem State.latch_rx (src : AlertSource) : (s.latch src).rx = s.rx := rfl
@[simp] theorem State.latch_exch (src : AlertSource) : (s.latch src).exch = s.exch := rfl
@[simp] theorem State.latch_enabled (src : AlertSource) : (s.latch src).enabled = s.enabled := rfl
@[simp] theorem State.latch_latched (src : AlertSource) : (s.latch src).latched = s.latched.latch src := rfl

/-! ## enter -/

/-! A change of the exchange state reaches the exchange and the Lease Timer (R65, R154). -/

@[simp] theorem State.enter_pending (e : ExchState) : (s.enter e).pending = s.pending := rfl
@[simp] theorem State.enter_sysrstn (e : ExchState) : (s.enter e).sysrstn = s.sysrstn := rfl
@[simp] theorem State.enter_bus (e : ExchState) : (s.enter e).bus = s.bus := rfl
@[simp] theorem State.enter_ctlrun (e : ExchState) : (s.enter e).ctlrun = s.ctlrun := rfl
@[simp] theorem State.enter_strapNode (e : ExchState) : (s.enter e).strapNode = s.strapNode := rfl
@[simp] theorem State.enter_strapRate (e : ExchState) : (s.enter e).strapRate = s.strapRate := rfl
@[simp] theorem State.enter_mem (e : ExchState) : (s.enter e).mem = s.mem := rfl
@[simp] theorem State.enter_port (e : ExchState) : (s.enter e).port = s.port := rfl
@[simp] theorem State.enter_mport (e : ExchState) : (s.enter e).mport = s.mport := rfl
@[simp] theorem State.enter_arb (e : ExchState) : (s.enter e).arb = s.arb := rfl
@[simp] theorem State.enter_regions (e : ExchState) : (s.enter e).regions = s.regions := rfl
@[simp] theorem State.enter_guardLog (e : ExchState) : (s.enter e).guardLog = s.guardLog := rfl
@[simp] theorem State.enter_forces (e : ExchState) : (s.enter e).forces = s.forces := rfl
@[simp] theorem State.enter_ops (e : ExchState) : (s.enter e).ops = s.ops := rfl
@[simp] theorem State.enter_completion (e : ExchState) : (s.enter e).completion = s.completion := rfl
@[simp] theorem State.enter_watch (e : ExchState) : (s.enter e).watch = s.watch := rfl
@[simp] theorem State.enter_fill (e : ExchState) : (s.enter e).fill = s.fill := rfl
@[simp] theorem State.enter_missed (e : ExchState) : (s.enter e).missed = s.missed := rfl
@[simp] theorem State.enter_bankA (e : ExchState) : (s.enter e).bankA = s.bankA := rfl
@[simp] theorem State.enter_bankB (e : ExchState) : (s.enter e).bankB = s.bankB := rfl
@[simp] theorem State.enter_sup (e : ExchState) : (s.enter e).sup = s.sup := rfl
@[simp] theorem State.enter_time (e : ExchState) : (s.enter e).time = s.time := rfl
@[simp] theorem State.enter_rx (e : ExchState) : (s.enter e).rx = s.rx := rfl
@[simp] theorem State.enter_latched (e : ExchState) : (s.enter e).latched = s.latched := rfl
@[simp] theorem State.enter_enabled (e : ExchState) : (s.enter e).enabled = s.enabled := rfl
@[simp] theorem State.enter_exch (e : ExchState) : (s.enter e).exch = { s.exch with state := e } := rfl
@[simp] theorem State.enter_lease (e : ExchState) : (s.enter e).lease = s.lease.follow e := rfl

/-! ## endGrant -/

/-! The end of a grant reaches the arbiter and the Memory Port (R5, R18). -/

@[simp] theorem State.endGrant_pending : (s.endGrant).pending = s.pending := rfl
@[simp] theorem State.endGrant_sysrstn : (s.endGrant).sysrstn = s.sysrstn := rfl
@[simp] theorem State.endGrant_bus : (s.endGrant).bus = s.bus := rfl
@[simp] theorem State.endGrant_ctlrun : (s.endGrant).ctlrun = s.ctlrun := rfl
@[simp] theorem State.endGrant_strapNode : (s.endGrant).strapNode = s.strapNode := rfl
@[simp] theorem State.endGrant_strapRate : (s.endGrant).strapRate = s.strapRate := rfl
@[simp] theorem State.endGrant_mem : (s.endGrant).mem = s.mem := rfl
@[simp] theorem State.endGrant_port : (s.endGrant).port = s.port := rfl
@[simp] theorem State.endGrant_regions : (s.endGrant).regions = s.regions := rfl
@[simp] theorem State.endGrant_guardLog : (s.endGrant).guardLog = s.guardLog := rfl
@[simp] theorem State.endGrant_forces : (s.endGrant).forces = s.forces := rfl
@[simp] theorem State.endGrant_lease : (s.endGrant).lease = s.lease := rfl
@[simp] theorem State.endGrant_ops : (s.endGrant).ops = s.ops := rfl
@[simp] theorem State.endGrant_completion : (s.endGrant).completion = s.completion := rfl
@[simp] theorem State.endGrant_watch : (s.endGrant).watch = s.watch := rfl
@[simp] theorem State.endGrant_fill : (s.endGrant).fill = s.fill := rfl
@[simp] theorem State.endGrant_missed : (s.endGrant).missed = s.missed := rfl
@[simp] theorem State.endGrant_bankA : (s.endGrant).bankA = s.bankA := rfl
@[simp] theorem State.endGrant_bankB : (s.endGrant).bankB = s.bankB := rfl
@[simp] theorem State.endGrant_sup : (s.endGrant).sup = s.sup := rfl
@[simp] theorem State.endGrant_time : (s.endGrant).time = s.time := rfl
@[simp] theorem State.endGrant_rx : (s.endGrant).rx = s.rx := rfl
@[simp] theorem State.endGrant_exch : (s.endGrant).exch = s.exch := rfl
@[simp] theorem State.endGrant_latched : (s.endGrant).latched = s.latched := rfl
@[simp] theorem State.endGrant_enabled : (s.endGrant).enabled = s.enabled := rfl
@[simp] theorem State.endGrant_arb : (s.endGrant).arb = { s.arb with grant := none } := rfl
@[simp] theorem State.endGrant_mport : (s.endGrant).mport = .idle := rfl

/-! ## grantRead -/

/-! The grant of a read reaches the arbiter and the Memory Port (R18). -/

@[simp] theorem State.grantRead_pending (h : Claimant) (a : Addr) : (s.grantRead h a).pending = s.pending := rfl
@[simp] theorem State.grantRead_sysrstn (h : Claimant) (a : Addr) : (s.grantRead h a).sysrstn = s.sysrstn := rfl
@[simp] theorem State.grantRead_bus (h : Claimant) (a : Addr) : (s.grantRead h a).bus = s.bus := rfl
@[simp] theorem State.grantRead_ctlrun (h : Claimant) (a : Addr) : (s.grantRead h a).ctlrun = s.ctlrun := rfl
@[simp] theorem State.grantRead_strapNode (h : Claimant) (a : Addr) : (s.grantRead h a).strapNode = s.strapNode := rfl
@[simp] theorem State.grantRead_strapRate (h : Claimant) (a : Addr) : (s.grantRead h a).strapRate = s.strapRate := rfl
@[simp] theorem State.grantRead_mem (h : Claimant) (a : Addr) : (s.grantRead h a).mem = s.mem := rfl
@[simp] theorem State.grantRead_port (h : Claimant) (a : Addr) : (s.grantRead h a).port = s.port := rfl
@[simp] theorem State.grantRead_regions (h : Claimant) (a : Addr) : (s.grantRead h a).regions = s.regions := rfl
@[simp] theorem State.grantRead_guardLog (h : Claimant) (a : Addr) : (s.grantRead h a).guardLog = s.guardLog := rfl
@[simp] theorem State.grantRead_forces (h : Claimant) (a : Addr) : (s.grantRead h a).forces = s.forces := rfl
@[simp] theorem State.grantRead_lease (h : Claimant) (a : Addr) : (s.grantRead h a).lease = s.lease := rfl
@[simp] theorem State.grantRead_ops (h : Claimant) (a : Addr) : (s.grantRead h a).ops = s.ops := rfl
@[simp] theorem State.grantRead_completion (h : Claimant) (a : Addr) : (s.grantRead h a).completion = s.completion := rfl
@[simp] theorem State.grantRead_watch (h : Claimant) (a : Addr) : (s.grantRead h a).watch = s.watch := rfl
@[simp] theorem State.grantRead_fill (h : Claimant) (a : Addr) : (s.grantRead h a).fill = s.fill := rfl
@[simp] theorem State.grantRead_missed (h : Claimant) (a : Addr) : (s.grantRead h a).missed = s.missed := rfl
@[simp] theorem State.grantRead_bankA (h : Claimant) (a : Addr) : (s.grantRead h a).bankA = s.bankA := rfl
@[simp] theorem State.grantRead_bankB (h : Claimant) (a : Addr) : (s.grantRead h a).bankB = s.bankB := rfl
@[simp] theorem State.grantRead_sup (h : Claimant) (a : Addr) : (s.grantRead h a).sup = s.sup := rfl
@[simp] theorem State.grantRead_time (h : Claimant) (a : Addr) : (s.grantRead h a).time = s.time := rfl
@[simp] theorem State.grantRead_rx (h : Claimant) (a : Addr) : (s.grantRead h a).rx = s.rx := rfl
@[simp] theorem State.grantRead_exch (h : Claimant) (a : Addr) : (s.grantRead h a).exch = s.exch := rfl
@[simp] theorem State.grantRead_latched (h : Claimant) (a : Addr) : (s.grantRead h a).latched = s.latched := rfl
@[simp] theorem State.grantRead_enabled (h : Claimant) (a : Addr) : (s.grantRead h a).enabled = s.enabled := rfl
@[simp] theorem State.grantRead_arb (h : Claimant) (a : Addr) : (s.grantRead h a).arb = { s.arb with grant := some ⟨h, .read⟩ } := rfl
@[simp] theorem State.grantRead_mport (h : Claimant) (a : Addr) : (s.grantRead h a).mport = .reading a := rfl

/-! ## replyReady -/

/-! A reply that becomes ready reaches the exchange and the Lease Timer (R156). -/

@[simp] theorem State.replyReady_pending (reply : List Byte) : (s.replyReady reply).pending = s.pending := rfl
@[simp] theorem State.replyReady_sysrstn (reply : List Byte) : (s.replyReady reply).sysrstn = s.sysrstn := rfl
@[simp] theorem State.replyReady_bus (reply : List Byte) : (s.replyReady reply).bus = s.bus := rfl
@[simp] theorem State.replyReady_ctlrun (reply : List Byte) : (s.replyReady reply).ctlrun = s.ctlrun := rfl
@[simp] theorem State.replyReady_strapNode (reply : List Byte) : (s.replyReady reply).strapNode = s.strapNode := rfl
@[simp] theorem State.replyReady_strapRate (reply : List Byte) : (s.replyReady reply).strapRate = s.strapRate := rfl
@[simp] theorem State.replyReady_mem (reply : List Byte) : (s.replyReady reply).mem = s.mem := rfl
@[simp] theorem State.replyReady_port (reply : List Byte) : (s.replyReady reply).port = s.port := rfl
@[simp] theorem State.replyReady_mport (reply : List Byte) : (s.replyReady reply).mport = s.mport := rfl
@[simp] theorem State.replyReady_arb (reply : List Byte) : (s.replyReady reply).arb = s.arb := rfl
@[simp] theorem State.replyReady_regions (reply : List Byte) : (s.replyReady reply).regions = s.regions := rfl
@[simp] theorem State.replyReady_guardLog (reply : List Byte) : (s.replyReady reply).guardLog = s.guardLog := rfl
@[simp] theorem State.replyReady_forces (reply : List Byte) : (s.replyReady reply).forces = s.forces := rfl
@[simp] theorem State.replyReady_ops (reply : List Byte) : (s.replyReady reply).ops = s.ops := rfl
@[simp] theorem State.replyReady_completion (reply : List Byte) : (s.replyReady reply).completion = s.completion := rfl
@[simp] theorem State.replyReady_watch (reply : List Byte) : (s.replyReady reply).watch = s.watch := rfl
@[simp] theorem State.replyReady_fill (reply : List Byte) : (s.replyReady reply).fill = s.fill := rfl
@[simp] theorem State.replyReady_missed (reply : List Byte) : (s.replyReady reply).missed = s.missed := rfl
@[simp] theorem State.replyReady_bankA (reply : List Byte) : (s.replyReady reply).bankA = s.bankA := rfl
@[simp] theorem State.replyReady_bankB (reply : List Byte) : (s.replyReady reply).bankB = s.bankB := rfl
@[simp] theorem State.replyReady_sup (reply : List Byte) : (s.replyReady reply).sup = s.sup := rfl
@[simp] theorem State.replyReady_time (reply : List Byte) : (s.replyReady reply).time = s.time := rfl
@[simp] theorem State.replyReady_rx (reply : List Byte) : (s.replyReady reply).rx = s.rx := rfl
@[simp] theorem State.replyReady_latched (reply : List Byte) : (s.replyReady reply).latched = s.latched := rfl
@[simp] theorem State.replyReady_enabled (reply : List Byte) : (s.replyReady reply).enabled = s.enabled := rfl

/-! ## answer -/

/-! An answer reaches the exchange and the Lease Timer (R156, R167). -/

@[simp] theorem State.answer_pending (st : Status) (data : List Byte) : (s.answer st data).pending = s.pending := rfl
@[simp] theorem State.answer_sysrstn (st : Status) (data : List Byte) : (s.answer st data).sysrstn = s.sysrstn := rfl
@[simp] theorem State.answer_bus (st : Status) (data : List Byte) : (s.answer st data).bus = s.bus := rfl
@[simp] theorem State.answer_ctlrun (st : Status) (data : List Byte) : (s.answer st data).ctlrun = s.ctlrun := rfl
@[simp] theorem State.answer_strapNode (st : Status) (data : List Byte) : (s.answer st data).strapNode = s.strapNode := rfl
@[simp] theorem State.answer_strapRate (st : Status) (data : List Byte) : (s.answer st data).strapRate = s.strapRate := rfl
@[simp] theorem State.answer_mem (st : Status) (data : List Byte) : (s.answer st data).mem = s.mem := rfl
@[simp] theorem State.answer_port (st : Status) (data : List Byte) : (s.answer st data).port = s.port := rfl
@[simp] theorem State.answer_mport (st : Status) (data : List Byte) : (s.answer st data).mport = s.mport := rfl
@[simp] theorem State.answer_arb (st : Status) (data : List Byte) : (s.answer st data).arb = s.arb := rfl
@[simp] theorem State.answer_regions (st : Status) (data : List Byte) : (s.answer st data).regions = s.regions := rfl
@[simp] theorem State.answer_guardLog (st : Status) (data : List Byte) : (s.answer st data).guardLog = s.guardLog := rfl
@[simp] theorem State.answer_forces (st : Status) (data : List Byte) : (s.answer st data).forces = s.forces := rfl
@[simp] theorem State.answer_ops (st : Status) (data : List Byte) : (s.answer st data).ops = s.ops := rfl
@[simp] theorem State.answer_completion (st : Status) (data : List Byte) : (s.answer st data).completion = s.completion := rfl
@[simp] theorem State.answer_watch (st : Status) (data : List Byte) : (s.answer st data).watch = s.watch := rfl
@[simp] theorem State.answer_fill (st : Status) (data : List Byte) : (s.answer st data).fill = s.fill := rfl
@[simp] theorem State.answer_missed (st : Status) (data : List Byte) : (s.answer st data).missed = s.missed := rfl
@[simp] theorem State.answer_bankA (st : Status) (data : List Byte) : (s.answer st data).bankA = s.bankA := rfl
@[simp] theorem State.answer_bankB (st : Status) (data : List Byte) : (s.answer st data).bankB = s.bankB := rfl
@[simp] theorem State.answer_sup (st : Status) (data : List Byte) : (s.answer st data).sup = s.sup := rfl
@[simp] theorem State.answer_time (st : Status) (data : List Byte) : (s.answer st data).time = s.time := rfl
@[simp] theorem State.answer_rx (st : Status) (data : List Byte) : (s.answer st data).rx = s.rx := rfl
@[simp] theorem State.answer_latched (st : Status) (data : List Byte) : (s.answer st data).latched = s.latched := rfl
@[simp] theorem State.answer_enabled (st : Status) (data : List Byte) : (s.answer st data).enabled = s.enabled := rfl

/-! ## block -/

/-! A block reaches the Guard Log and the latches (R29). -/

@[simp] theorem State.block_pending (acc : Access) : (s.block acc).pending = s.pending := rfl
@[simp] theorem State.block_sysrstn (acc : Access) : (s.block acc).sysrstn = s.sysrstn := rfl
@[simp] theorem State.block_bus (acc : Access) : (s.block acc).bus = s.bus := rfl
@[simp] theorem State.block_ctlrun (acc : Access) : (s.block acc).ctlrun = s.ctlrun := rfl
@[simp] theorem State.block_strapNode (acc : Access) : (s.block acc).strapNode = s.strapNode := rfl
@[simp] theorem State.block_strapRate (acc : Access) : (s.block acc).strapRate = s.strapRate := rfl
@[simp] theorem State.block_mem (acc : Access) : (s.block acc).mem = s.mem := rfl
@[simp] theorem State.block_port (acc : Access) : (s.block acc).port = s.port := rfl
@[simp] theorem State.block_mport (acc : Access) : (s.block acc).mport = s.mport := rfl
@[simp] theorem State.block_arb (acc : Access) : (s.block acc).arb = s.arb := rfl
@[simp] theorem State.block_regions (acc : Access) : (s.block acc).regions = s.regions := rfl
@[simp] theorem State.block_forces (acc : Access) : (s.block acc).forces = s.forces := rfl
@[simp] theorem State.block_lease (acc : Access) : (s.block acc).lease = s.lease := rfl
@[simp] theorem State.block_ops (acc : Access) : (s.block acc).ops = s.ops := rfl
@[simp] theorem State.block_completion (acc : Access) : (s.block acc).completion = s.completion := rfl
@[simp] theorem State.block_watch (acc : Access) : (s.block acc).watch = s.watch := rfl
@[simp] theorem State.block_fill (acc : Access) : (s.block acc).fill = s.fill := rfl
@[simp] theorem State.block_missed (acc : Access) : (s.block acc).missed = s.missed := rfl
@[simp] theorem State.block_bankA (acc : Access) : (s.block acc).bankA = s.bankA := rfl
@[simp] theorem State.block_bankB (acc : Access) : (s.block acc).bankB = s.bankB := rfl
@[simp] theorem State.block_sup (acc : Access) : (s.block acc).sup = s.sup := rfl
@[simp] theorem State.block_time (acc : Access) : (s.block acc).time = s.time := rfl
@[simp] theorem State.block_rx (acc : Access) : (s.block acc).rx = s.rx := rfl
@[simp] theorem State.block_exch (acc : Access) : (s.block acc).exch = s.exch := rfl
@[simp] theorem State.block_enabled (acc : Access) : (s.block acc).enabled = s.enabled := rfl
@[simp] theorem State.block_latched (acc : Access) : (s.block acc).latched = s.latched.latch .guard := rfl
@[simp] theorem State.block_guardLog (acc : Access) : (s.block acc).guardLog = s.guardLog.take ⟨acc.addr, acc.data, acc.lanes, s.sup.seq, s.time⟩ := rfl

/-! ## setBank -/

/-! Replacing a bank changes that bank alone (R109). -/

@[simp] theorem State.setBank_pending (i : BankId) (b : Bank) : (s.setBank i b).pending = s.pending := by cases i <;> rfl
@[simp] theorem State.setBank_sysrstn (i : BankId) (b : Bank) : (s.setBank i b).sysrstn = s.sysrstn := by cases i <;> rfl
@[simp] theorem State.setBank_bus (i : BankId) (b : Bank) : (s.setBank i b).bus = s.bus := by cases i <;> rfl
@[simp] theorem State.setBank_ctlrun (i : BankId) (b : Bank) : (s.setBank i b).ctlrun = s.ctlrun := by cases i <;> rfl
@[simp] theorem State.setBank_strapNode (i : BankId) (b : Bank) : (s.setBank i b).strapNode = s.strapNode := by cases i <;> rfl
@[simp] theorem State.setBank_strapRate (i : BankId) (b : Bank) : (s.setBank i b).strapRate = s.strapRate := by cases i <;> rfl
@[simp] theorem State.setBank_mem (i : BankId) (b : Bank) : (s.setBank i b).mem = s.mem := by cases i <;> rfl
@[simp] theorem State.setBank_port (i : BankId) (b : Bank) : (s.setBank i b).port = s.port := by cases i <;> rfl
@[simp] theorem State.setBank_mport (i : BankId) (b : Bank) : (s.setBank i b).mport = s.mport := by cases i <;> rfl
@[simp] theorem State.setBank_arb (i : BankId) (b : Bank) : (s.setBank i b).arb = s.arb := by cases i <;> rfl
@[simp] theorem State.setBank_regions (i : BankId) (b : Bank) : (s.setBank i b).regions = s.regions := by cases i <;> rfl
@[simp] theorem State.setBank_guardLog (i : BankId) (b : Bank) : (s.setBank i b).guardLog = s.guardLog := by cases i <;> rfl
@[simp] theorem State.setBank_forces (i : BankId) (b : Bank) : (s.setBank i b).forces = s.forces := by cases i <;> rfl
@[simp] theorem State.setBank_lease (i : BankId) (b : Bank) : (s.setBank i b).lease = s.lease := by cases i <;> rfl
@[simp] theorem State.setBank_ops (i : BankId) (b : Bank) : (s.setBank i b).ops = s.ops := by cases i <;> rfl
@[simp] theorem State.setBank_completion (i : BankId) (b : Bank) : (s.setBank i b).completion = s.completion := by cases i <;> rfl
@[simp] theorem State.setBank_watch (i : BankId) (b : Bank) : (s.setBank i b).watch = s.watch := by cases i <;> rfl
@[simp] theorem State.setBank_fill (i : BankId) (b : Bank) : (s.setBank i b).fill = s.fill := by cases i <;> rfl
@[simp] theorem State.setBank_missed (i : BankId) (b : Bank) : (s.setBank i b).missed = s.missed := by cases i <;> rfl
@[simp] theorem State.setBank_sup (i : BankId) (b : Bank) : (s.setBank i b).sup = s.sup := by cases i <;> rfl
@[simp] theorem State.setBank_time (i : BankId) (b : Bank) : (s.setBank i b).time = s.time := by cases i <;> rfl
@[simp] theorem State.setBank_rx (i : BankId) (b : Bank) : (s.setBank i b).rx = s.rx := by cases i <;> rfl
@[simp] theorem State.setBank_exch (i : BankId) (b : Bank) : (s.setBank i b).exch = s.exch := by cases i <;> rfl
@[simp] theorem State.setBank_latched (i : BankId) (b : Bank) : (s.setBank i b).latched = s.latched := by cases i <;> rfl
@[simp] theorem State.setBank_enabled (i : BankId) (b : Bank) : (s.setBank i b).enabled = s.enabled := by cases i <;> rfl

@[simp] theorem State.bank_setBank (i : BankId) (b : Bank) : (s.setBank i b).bank i = b := by cases i <;> rfl

@[simp] theorem State.bank_setBank_other (i : BankId) (b : Bank) : (s.setBank i b).bank i.other = s.bank i.other := by
  cases i <;> rfl

@[simp] theorem BankId.other_other (i : BankId) : i.other.other = i := by cases i <;> rfl

/-! ## resetBlocks -/

/-! Device reset leaves the pins, the straps, memory and the model's own queue (R19, R20, R58). -/

@[simp] theorem State.resetBlocks_pending : s.resetBlocks.pending = s.pending := rfl
@[simp] theorem State.resetBlocks_sysrstn : s.resetBlocks.sysrstn = false := rfl
@[simp] theorem State.resetBlocks_bus : s.resetBlocks.bus = s.bus := rfl
@[simp] theorem State.resetBlocks_ctlrun : s.resetBlocks.ctlrun = s.ctlrun := rfl
@[simp] theorem State.resetBlocks_strapNode : s.resetBlocks.strapNode = s.strapNode := rfl
@[simp] theorem State.resetBlocks_strapRate : s.resetBlocks.strapRate = s.strapRate := rfl
@[simp] theorem State.resetBlocks_mem : s.resetBlocks.mem = s.mem := rfl
@[simp] theorem State.resetBlocks_port : s.resetBlocks.port = State.reset.port := rfl
@[simp] theorem State.resetBlocks_mport : s.resetBlocks.mport = State.reset.mport := rfl
@[simp] theorem State.resetBlocks_arb : s.resetBlocks.arb = State.reset.arb := rfl
@[simp] theorem State.resetBlocks_regions : s.resetBlocks.regions = State.reset.regions := rfl
@[simp] theorem State.resetBlocks_guardLog : s.resetBlocks.guardLog = State.reset.guardLog := rfl
@[simp] theorem State.resetBlocks_forces : s.resetBlocks.forces = State.reset.forces := rfl
@[simp] theorem State.resetBlocks_lease : s.resetBlocks.lease = State.reset.lease := rfl
@[simp] theorem State.resetBlocks_ops : s.resetBlocks.ops = State.reset.ops := rfl
@[simp] theorem State.resetBlocks_completion : s.resetBlocks.completion = State.reset.completion := rfl
@[simp] theorem State.resetBlocks_watch : s.resetBlocks.watch = State.reset.watch := rfl
@[simp] theorem State.resetBlocks_fill : s.resetBlocks.fill = State.reset.fill := rfl
@[simp] theorem State.resetBlocks_missed : s.resetBlocks.missed = State.reset.missed := rfl
@[simp] theorem State.resetBlocks_bankA : s.resetBlocks.bankA = State.reset.bankA := rfl
@[simp] theorem State.resetBlocks_bankB : s.resetBlocks.bankB = State.reset.bankB := rfl
@[simp] theorem State.resetBlocks_sup : s.resetBlocks.sup = State.reset.sup := rfl
@[simp] theorem State.resetBlocks_time : s.resetBlocks.time = State.reset.time := rfl
@[simp] theorem State.resetBlocks_rx : s.resetBlocks.rx = State.reset.rx := rfl
@[simp] theorem State.resetBlocks_exch : s.resetBlocks.exch = State.reset.exch := rfl
@[simp] theorem State.resetBlocks_latched : s.resetBlocks.latched = State.reset.latched := rfl
@[simp] theorem State.resetBlocks_enabled : s.resetBlocks.enabled = State.reset.enabled := rfl

/-! ## The EMPTY bank -/

@[simp] theorem Bank.empty_words_length : Bank.empty.words.length = 256 := List.length_replicate

@[simp] theorem Bank.empty_flags_length : Bank.empty.flags.length = 256 := List.length_replicate

@[simp] theorem Bank.empty_state : Bank.empty.state = .empty := rfl

@[simp] theorem Bank.empty_second : Bank.empty.second = false := rfl

@[simp] theorem State.reset_bankA : State.reset.bankA = Bank.empty := rfl

@[simp] theorem State.reset_bankB : State.reset.bankB = Bank.empty := rfl

end Sys2Proof.Machine
end

