-- ==== Sys2Proof/Laws/Ops.lean ====
section
/-! SUPPORT. What each shared operation can do: one lemma for each, which names the fields it may change and leaves every
other field as it was. -/

namespace Sys2Proof.Machine

/-! ## The banks and the exchange -/

theorem State.setBank_changes (s : State) (i : BankId) (b : Bank) :
    ∃ x y, s.setBank i b = { s with bankA := x, bankB := y } := by
  cases i
  · exact ⟨b, s.bankB, rfl⟩
  · exact ⟨s.bankA, b, rfl⟩

/-- The bank under transfer alone changes, and only from SENDING (R123). -/
theorem State.releaseBank_changes (s : State) (dest : BankState) :
    ∃ x y, s.releaseBank dest = { s with bankA := x, bankB := y } := by
  unfold State.releaseBank
  cases s.exch.bank with
  | none => exact ⟨s.bankA, s.bankB, rfl⟩
  | some i =>
    dsimp only
    split
    · exact State.setBank_changes s i _
    · exact ⟨s.bankA, s.bankB, rfl⟩

/-- The end of an exchange reaches the exchange, the lease and the banks (R154, R123). -/
theorem State.endExchange_changes (s : State) (dest : BankState) :
    ∃ x y, s.endExchange dest = { s with
      bankA := x, bankB := y, lease := s.lease.follow .idle, exch := { Exchange.reset with faults := s.exch.faults } } := by
  obtain ⟨x, y, h⟩ := State.releaseBank_changes s dest
  exact ⟨x, y, by unfold State.endExchange; rw [h]⟩

theorem State.emptyBank_changes (s : State) (i : BankId) :
    ∃ x y, s.emptyBank i = { s with bankA := x, bankB := y } := by
  cases i
  · exact ⟨_, _, rfl⟩
  · exact ⟨_, _, rfl⟩

/-! ## The Capture Unit -/

theorem captureInto_changes (s : State) (f : Fill) (a : Addr) (w : Word) :
    ∃ x y z, captureInto s f a w = { s with bankA := x, bankB := y, fill := z } := by
  unfold captureInto
  obtain ⟨bank, _, _⟩ := f
  cases bank
  · exact ⟨_, _, _, rfl⟩
  · exact ⟨_, _, _, rfl⟩

theorem completeFill_changes (s : State) (f : Fill) :
    ∃ x y, completeFill s f = { s with bankA := x, bankB := y, latched := s.latched.latch .snapReady, fill := none,
                                        arb := { s.arb with waitF := false } } := by
  unfold completeFill
  obtain ⟨bank, _, _⟩ := f
  cases bank
  · exact ⟨_, _, rfl⟩
  · exact ⟨_, _, rfl⟩

/-- Settling a fill reaches the banks, the latches, the fill context and F's claim (R119). -/
theorem State.settleFill_changes (s : State) :
    ∃ x y l z b, s.settleFill = { s with bankA := x, bankB := y, latched := l, fill := z,
                                          arb := { s.arb with waitF := b } } := by
  unfold State.settleFill
  split
  · exact ⟨_, _, _, _, _, rfl⟩
  · split
    · obtain ⟨x, y, h⟩ := completeFill_changes s ‹Fill›
      exact ⟨x, y, _, _, _, h⟩
    · exact ⟨_, _, _, _, _, rfl⟩

/-- A capture reaches the banks, the latches, the fill context and F's claim (R116, R119). -/
theorem State.capture_changes (s : State) (a : Addr) (w : Word) :
    ∃ x y l z b, s.capture a w = { s with bankA := x, bankB := y, latched := l, fill := z,
                                          arb := { s.arb with waitF := b } } := by
  unfold State.capture
  split
  · exact ⟨_, _, _, _, _, rfl⟩
  · rename_i f _
    obtain ⟨x, y, z, h⟩ := captureInto_changes s f a w
    obtain ⟨x', y', l, z', b, h'⟩ := State.settleFill_changes (captureInto s f a w)
    exact ⟨x', y', l, z', b, by rw [h', h]⟩

/-! ## The Port Arbiter -/

theorem State.grantWrite_changes (s : State) (h : Claimant) (a : Addr) (d : Word) (lanes : Lanes) :
    ∃ b m, s.grantWrite h a d lanes = { s with arb := b, mport := m } := by
  unfold State.grantWrite
  split
  · exact ⟨_, _, rfl⟩
  · exact ⟨_, _, rfl⟩

theorem State.grantC_changes (s : State) : ∃ b m, s.grantC = { s with arb := b, mport := m } := by
  unfold State.grantC
  dsimp only
  split
  · split
    · obtain ⟨b, m, h⟩ := State.grantWrite_changes { s with arb := { s.arb with waitC := false } } .c
        ‹Access›.addr (substitute s.forces ‹Access›.cls ‹Access›.addr ‹Access›.data ‹Access›.lanes) ‹Access›.lanes
      exact ⟨b, m, h⟩
    · exact ⟨_, _, rfl⟩
  · exact ⟨_, _, rfl⟩

theorem State.grantF_changes (s : State) : ∃ b m, s.grantF = { s with arb := b, mport := m } := by
  unfold State.grantF
  dsimp only
  split
  · exact ⟨_, _, rfl⟩
  · exact ⟨_, _, rfl⟩

theorem State.grantQ_changes (s : State) : ∃ b m o, s.grantQ = { s with arb := b, mport := m, ops := o } := by
  unfold State.grantQ
  dsimp only
  split
  · exact ⟨_, _, _, rfl⟩
  · rename_i o rest _
    split
    · rename_i d _
      obtain ⟨b, m, h⟩ := State.grantWrite_changes
        { s with arb := { s.arb with waitQ := false }, ops := { o with active := true } :: rest } .q o.addr
        (substitute s.forces o.held o.addr d Lanes.both) Lanes.both
      exact ⟨b, m, _, h⟩
    · exact ⟨_, _, _, rfl⟩
    · exact ⟨_, _, _, rfl⟩

/-- A grant decision reaches the arbiter, the Memory Port and the queue, whose head may become ACTIVE (R16, R76). -/
theorem State.decideGrant_changes (s : State) :
    ∃ b m o, s.decideGrant = { s with arb := b, mport := m, ops := o } := by
  unfold State.decideGrant
  split
  · unfold State.grantController
    obtain ⟨b, m, h⟩ := State.grantC_changes
      { s with arb := { s.arb with count := if s.arb.engineWaits then s.arb.count + 1 else 0 } }
    exact ⟨b, m, _, h⟩
  · split
    · unfold State.grantEngine
      dsimp only
      split
      · obtain ⟨b, m, h⟩ := State.grantF_changes { s with arb := { s.arb with count := 0, lastEngine := s.arb.nextEngine } }
        exact ⟨b, m, _, by simpa using h⟩
      · obtain ⟨b, m, o, h⟩ := State.grantQ_changes { s with arb := { s.arb with count := 0, lastEngine := s.arb.nextEngine } }
        exact ⟨b, m, o, by simpa using h⟩
    · exact ⟨_, _, _, rfl⟩

theorem State.claimArrives_changes (s : State) (before : Arbiter) :
    ∃ b m o, s.claimArrives before = { s with arb := b, mport := m, ops := o } := by
  unfold State.claimArrives
  split
  · exact State.decideGrant_changes s
  · exact ⟨_, _, _, rfl⟩

theorem State.afterControllerGrant_changes (s : State) :
    ∃ b m o, s.afterControllerGrant = { s with arb := b, mport := m, ops := o } := by
  unfold State.afterControllerGrant
  split
  · exact State.decideGrant_changes s
  · exact ⟨_, _, _, rfl⟩

/-! ## The Operation Queue -/

/-- The head lookup reaches the queue, the completion record and Q's claim (R76). -/
theorem State.settleHead_changes (s : State) :
    ∃ o c b, s.settleHead = { s with ops := o, completion := c, arb := b } := ⟨_, _, _, rfl⟩

/-- The examination of the completion record reaches it, the exchange and the lease (R83). -/
theorem State.examineRecord_changes (s : State) :
    ∃ c e l, s.examineRecord = { s with completion := c, exch := e, lease := l } := by
  unfold State.examineRecord
  split
  · exact ⟨_, _, _, rfl⟩
  · exact ⟨_, _, _, rfl⟩

/-- Queueing reaches the queue, the record, the arbiter, the Memory Port, and through a satisfied record the exchange and the
lease (R75, R76, R83). -/
theorem State.enqueue_changes (s : State) (new : List Operation) :
    ∃ o c b m e l, s.enqueue new =
      { s with ops := o, completion := c, arb := b, mport := m, exch := e, lease := l } := by
  unfold State.enqueue
  obtain ⟨o, c, b, h⟩ := State.settleHead_changes { s with ops := s.ops ++ new }
  rw [h]
  obtain ⟨b', m, o', h'⟩ := State.claimArrives_changes { s with ops := o, completion := c, arb := b } s.arb
  dsimp only at h' ⊢
  rw [h']
  obtain ⟨c', e, l, h''⟩ := State.examineRecord_changes { s with ops := o', completion := c, arb := b', mport := m }
  exact ⟨_, _, _, _, _, _, h''⟩

/-- A retirement reaches the queue, the record, the arbiter, the Memory Port, the exchange and the lease (R80). -/
theorem State.retireHead_changes (s : State) (w : Word) :
    ∃ o c b m e l, s.retireHead w =
      { s with ops := o, completion := c, arb := b, mport := m, exch := e, lease := l } := by
  unfold State.retireHead
  split
  · exact ⟨_, _, _, _, _, _, rfl⟩
  · rename_i o rest _
    obtain ⟨o', c, b, h⟩ := State.settleHead_changes
      { s with ops := rest, completion := handOn s.completion o w }.endGrant
    rw [h]
    obtain ⟨b', m, o'', h'⟩ := State.decideGrant_changes
      { { s with ops := rest, completion := handOn s.completion o w }.endGrant with ops := o', completion := c, arb := b }
    rw [h']
    obtain ⟨c', e, l, h''⟩ := State.examineRecord_changes
      { { { s with ops := rest, completion := handOn s.completion o w }.endGrant with
          ops := o', completion := c, arb := b } with arb := b', mport := m, ops := o'' }
    exact ⟨_, _, _, _, _, _, h''⟩

/-- Abandoning a PEEK or SYNC reaches the queue, the record and Q's claim (R86). -/
theorem State.abandonRecord_changes (s : State) :
    ∃ o c b, s.abandonRecord = { s with ops := o, completion := c, arb := b } := by
  unfold State.abandonRecord
  split
  · exact ⟨_, _, _, rfl⟩
  · exact ⟨_, _, _, rfl⟩
  · exact ⟨_, _, _, rfl⟩

/-! ## The Controller Port -/

theorem State.takeAtArbiter_changes (s : State) (claims : Bool) :
    ∃ b m o, s.takeAtArbiter claims = { s with arb := b, mport := m, ops := o } := by
  unfold State.takeAtArbiter
  dsimp only
  split
  · obtain ⟨b, m, o, h⟩ := State.decideGrant_changes
      { s with arb := { s.arb with waitC := s.arb.waitC || claims, reservation := none } }
    exact ⟨b, m, o, h⟩
  · split
    · obtain ⟨b, m, o, h⟩ := State.claimArrives_changes
        { s with arb := { s.arb with waitC := s.arb.waitC || claims, reservation := none } } s.arb
      exact ⟨b, m, o, h⟩
    · exact ⟨_, _, _, rfl⟩

/-- A take reaches the port, the arbiter, the Memory Port, the queue, and for a blocked write the Guard Log and the latches
(R1, R6 to R9, R29). -/
theorem State.takeAccess_changes (s : State) :
    ∃ p b m o g l, s.takeAccess =
      { s with port := p, arb := b, mport := m, ops := o, guardLog := g, latched := l } := by
  unfold State.takeAccess
  dsimp only
  split
  · obtain ⟨b, m, o, h⟩ := State.takeAtArbiter_changes { s with port := .active (accessOf s.regions s.bus) } true
    exact ⟨_, b, m, o, _, _, h⟩
  · obtain ⟨b, m, o, h⟩ := State.takeAtArbiter_changes s false
    rw [h]
    split
    · split
      · exact ⟨_, _, _, _, _, _, rfl⟩
      · exact ⟨_, _, _, _, _, _, rfl⟩
    · exact ⟨_, _, _, _, _, _, rfl⟩

theorem State.tryTake_changes (s : State) :
    ∃ p b m o g l, s.tryTake =
      { s with port := p, arb := b, mport := m, ops := o, guardLog := g, latched := l } := by
  unfold State.tryTake
  split
  · exact State.takeAccess_changes s
  · exact ⟨_, _, _, _, _, _, rfl⟩

theorem State.completeAccess_changes (s : State) (word : Option Word) :
    ∃ p b m o g l, s.completeAccess word =
      { s with port := p, arb := b, mport := m, ops := o, guardLog := g, latched := l } := by
  unfold State.completeAccess
  split
  · split
    · obtain ⟨p, b, m, o, g, l, h⟩ := State.tryTake_changes { s with port := .idle }
      exact ⟨p, b, m, o, g, l, h⟩
    · exact ⟨_, _, _, _, _, _, rfl⟩
  · exact ⟨_, _, _, _, _, _, rfl⟩

theorem State.moveBus_changes (s : State) (pins : BusPins) :
    ∃ p b m o g l, s.moveBus pins =
      { s with bus := pins, port := p, arb := b, mport := m, ops := o, guardLog := g, latched := l } := by
  unfold State.moveBus
  split
  · obtain ⟨p, b, m, o, g, l, h⟩ := State.tryTake_changes { s with bus := pins }
    exact ⟨p, b, m, o, g, l, h⟩
  · exact ⟨_, _, _, _, _, _, rfl⟩

/-! ## The Scan Supervisor and the start of a fill -/

theorem State.enterStall_changes (s : State) :
    ∃ f, s.enterStall = { s with sup := { s.sup with state := .stalled }, latched := s.latched.latch .stall,
                                  forces := f } := by
  unfold State.enterStall
  dsimp only
  split
  · exact ⟨_, rfl⟩
  · exact ⟨_, rfl⟩

/-- The start of a fill reaches the banks, the fill context, the missed count, the watch mode, F's claim, and with every
element ABSENT the latches (R110 to R113). -/
theorem State.startFill_changes (s : State) (i : BankId) (p : Option Micros) :
    ∃ x y z m w b l, s.startFill i p =
      { s with bankA := x, bankB := y, fill := z, missed := m, watch := w, arb := b, latched := l } := by
  unfold State.startFill
  dsimp only
  cases i
  · obtain ⟨x, y, l, z, b, h⟩ := State.settleFill_changes _
    exact ⟨_, _, _, _, _, _, _, h⟩
  · obtain ⟨x, y, l, z, b, h⟩ := State.settleFill_changes _
    exact ⟨_, _, _, _, _, _, _, h⟩

theorem State.judgeMarker_changes (s : State) (p : Option Micros) :
    ∃ x y z m w b l, s.judgeMarker p =
      { s with bankA := x, bankB := y, fill := z, missed := m, watch := w, arb := b, latched := l } := by
  unfold State.judgeMarker
  split
  · exact ⟨_, _, _, _, _, _, _, rfl⟩
  · split
    · exact State.startFill_changes s _ p
    · exact ⟨_, _, _, _, _, _, _, rfl⟩

/-- A marker reaches the supervisor and what the start of a fill reaches, and a stall entry taken before it the Force Table
(R135, R141). -/
theorem State.marker_changes (s : State) :
    ∃ x y z m w b l v f, s.marker =
      { s with bankA := x, bankB := y, fill := z, missed := m, watch := w, arb := b, latched := l, sup := v,
               forces := f } := by
  unfold State.marker
  dsimp only
  split
  · obtain ⟨f, h⟩ := State.enterStall_changes s
    rw [h]
    obtain ⟨x, y, z, m, w, b, l, h'⟩ := State.judgeMarker_changes _ _
    exact ⟨_, _, _, _, _, _, _, _, _, h'⟩
  · obtain ⟨x, y, z, m, w, b, l, h'⟩ := State.judgeMarker_changes _ _
    exact ⟨_, _, _, _, _, _, _, _, _, h'⟩

theorem State.markerCheck_changes (s : State) (a : Addr) :
    ∃ x y z m w b l v f, s.markerCheck a =
      { s with bankA := x, bankB := y, fill := z, missed := m, watch := w, arb := b, latched := l, sup := v,
               forces := f } := by
  unfold State.markerCheck
  split
  · exact State.marker_changes s
  · exact ⟨_, _, _, _, _, _, _, _, _, rfl⟩

/-! ## The link -/

theorem State.endFrame_changes (s : State) :
    ∃ e l, s.endFrame = { s with rx := { s.rx with state := .hunt }, exch := e, lease := l } := by
  unfold State.endFrame
  dsimp only
  split
  · exact ⟨_, _, rfl⟩
  · exact ⟨_, _, rfl⟩

/-- A discard reaches the receiver, the exchange, the lease condition and the latches (R151). -/
theorem State.discardFrame_changes (s : State) :
    ∃ e l, s.discardFrame =
      { s with rx := { s.rx with state := .hunt }, exch := e, lease := l, latched := s.latched.latch .linkFault } := by
  unfold State.discardFrame
  obtain ⟨e, l, h⟩ := State.endFrame_changes s
  rw [h]
  exact ⟨_, _, rfl⟩

theorem State.endTransfer_changes (s : State) :
    ∃ x y e l, s.endTransfer = { s with bankA := x, bankB := y, exch := e, lease := l } := by
  unfold State.endTransfer
  split
  · obtain ⟨x, y, h⟩ := State.endExchange_changes s .ready
    exact ⟨_, _, _, _, h⟩
  · exact ⟨_, _, _, _, rfl⟩

/-- The taking of a request reaches the receiver, the exchange, the lease, and a bank under transfer (R155). -/
theorem State.takeRequest_changes (s : State) (code : Byte) :
    ∃ x y e l, s.takeRequest code =
      { s with rx := { s.rx with state := .hunt }, bankA := x, bankB := y, exch := e, lease := l } := by
  unfold State.takeRequest
  obtain ⟨e, l, h⟩ := State.endFrame_changes s
  rw [h]
  obtain ⟨x, y, e', l', h'⟩ := State.endTransfer_changes { s with rx := { s.rx with state := .hunt }, exch := e, lease := l }
  rw [h']
  exact ⟨_, _, _, _, rfl⟩

theorem State.serveContinue_changes (s : State) (segment : Nat) :
    ∃ x y e l, s.serveContinue segment = { s with bankA := x, bankB := y, exch := e, lease := l } := by
  unfold State.serveContinue
  dsimp only
  split
  · exact ⟨_, _, _, _, rfl⟩
  · split
    · exact ⟨_, _, _, _, rfl⟩
    · obtain ⟨x, y, h⟩ := State.releaseBank_changes s .ready
      rw [h]
      exact ⟨_, _, _, _, rfl⟩

/-- A broadcast request reaches the Force Table and the lease alone (R71). -/
theorem State.actBroadcast_changes (s : State) (payload : List Byte) :
    ∃ f l, s.actBroadcast payload = { s with forces := f, lease := l } := by
  unfold State.actBroadcast
  split
  · exact ⟨_, _, rfl⟩
  · split
    · split
      · exact ⟨_, _, rfl⟩
      · exact ⟨_, _, rfl⟩
    · split
      · split
        · exact ⟨_, _, rfl⟩
        · exact ⟨_, _, rfl⟩
      · exact ⟨_, _, rfl⟩

/-- A carried grant reaches memory and what a marker reaches (R19). -/
theorem State.carryGrant_changes (s : State) :
    ∃ me x y z m w b l v f, s.carryGrant =
      { s with mem := me, bankA := x, bankB := y, fill := z, missed := m, watch := w, arb := b, latched := l, sup := v,
               forces := f } := by
  unfold State.carryGrant
  split
  · split
    · obtain ⟨x, y, z, m, w, b, l, v, f, h⟩ := State.markerCheck_changes _ _
      exact ⟨_, _, _, _, _, _, _, _, _, _, h⟩
    · exact ⟨_, _, _, _, _, _, _, _, _, _, rfl⟩
  · split
    · obtain ⟨x, y, z, m, w, b, l, v, f, h⟩ := State.markerCheck_changes _ _
      exact ⟨_, _, _, _, _, _, _, _, _, _, h⟩
    · exact ⟨_, _, _, _, _, _, _, _, _, _, rfl⟩
  · exact ⟨_, _, _, _, _, _, _, _, _, _, rfl⟩

end Sys2Proof.Machine
end

