-- ==== Sys2Proof/Laws/Requests.lean ====
section
/-! SUPPORT. The taking and the answering of a request, and the fields of its payload and of its reply. -/

namespace Sys2Proof.Machine

/-! ## The taking leaves every block but the link, the lease and a bank under transfer -/

section

variable (s : State) (code : Byte)

@[simp] theorem State.takeRequest_mem : (s.takeRequest code).mem = s.mem := by
  obtain ⟨_, _, _, _, h⟩ := State.takeRequest_changes s code; rw [h]

@[simp] theorem State.takeRequest_sysrstn : (s.takeRequest code).sysrstn = s.sysrstn := by
  obtain ⟨_, _, _, _, h⟩ := State.takeRequest_changes s code; rw [h]

@[simp] theorem State.takeRequest_ctlrun : (s.takeRequest code).ctlrun = s.ctlrun := by
  obtain ⟨_, _, _, _, h⟩ := State.takeRequest_changes s code; rw [h]

@[simp] theorem State.takeRequest_strapNode : (s.takeRequest code).strapNode = s.strapNode := by
  obtain ⟨_, _, _, _, h⟩ := State.takeRequest_changes s code; rw [h]

@[simp] theorem State.takeRequest_port : (s.takeRequest code).port = s.port := by
  obtain ⟨_, _, _, _, h⟩ := State.takeRequest_changes s code; rw [h]

@[simp] theorem State.takeRequest_mport : (s.takeRequest code).mport = s.mport := by
  obtain ⟨_, _, _, _, h⟩ := State.takeRequest_changes s code; rw [h]

@[simp] theorem State.takeRequest_arb : (s.takeRequest code).arb = s.arb := by
  obtain ⟨_, _, _, _, h⟩ := State.takeRequest_changes s code; rw [h]

@[simp] theorem State.takeRequest_regions : (s.takeRequest code).regions = s.regions := by
  obtain ⟨_, _, _, _, h⟩ := State.takeRequest_changes s code; rw [h]

@[simp] theorem State.takeRequest_guardLog : (s.takeRequest code).guardLog = s.guardLog := by
  obtain ⟨_, _, _, _, h⟩ := State.takeRequest_changes s code; rw [h]

@[simp] theorem State.takeRequest_forces : (s.takeRequest code).forces = s.forces := by
  obtain ⟨_, _, _, _, h⟩ := State.takeRequest_changes s code; rw [h]

@[simp] theorem State.takeRequest_ops : (s.takeRequest code).ops = s.ops := by
  obtain ⟨_, _, _, _, h⟩ := State.takeRequest_changes s code; rw [h]

@[simp] theorem State.takeRequest_completion : (s.takeRequest code).completion = s.completion := by
  obtain ⟨_, _, _, _, h⟩ := State.takeRequest_changes s code; rw [h]

@[simp] theorem State.takeRequest_watch : (s.takeRequest code).watch = s.watch := by
  obtain ⟨_, _, _, _, h⟩ := State.takeRequest_changes s code; rw [h]

@[simp] theorem State.takeRequest_fill : (s.takeRequest code).fill = s.fill := by
  obtain ⟨_, _, _, _, h⟩ := State.takeRequest_changes s code; rw [h]

@[simp] theorem State.takeRequest_missed : (s.takeRequest code).missed = s.missed := by
  obtain ⟨_, _, _, _, h⟩ := State.takeRequest_changes s code; rw [h]

@[simp] theorem State.takeRequest_sup : (s.takeRequest code).sup = s.sup := by
  obtain ⟨_, _, _, _, h⟩ := State.takeRequest_changes s code; rw [h]

@[simp] theorem State.takeRequest_time : (s.takeRequest code).time = s.time := by
  obtain ⟨_, _, _, _, h⟩ := State.takeRequest_changes s code; rw [h]

@[simp] theorem State.takeRequest_latched : (s.takeRequest code).latched = s.latched := by
  obtain ⟨_, _, _, _, h⟩ := State.takeRequest_changes s code; rw [h]

@[simp] theorem State.takeRequest_enabled : (s.takeRequest code).enabled = s.enabled := by
  obtain ⟨_, _, _, _, h⟩ := State.takeRequest_changes s code; rw [h]

@[simp] theorem State.takeRequest_code : (s.takeRequest code).exch.code = some code := rfl

@[simp] theorem State.takeRequest_exchState : (s.takeRequest code).exch.state = .executing := rfl

end

@[simp] theorem Lease.follow_level (l : Lease) (e : ExchState) : (l.follow e).level = l.level := rfl

@[simp] theorem Lease.renew_level (l : Lease) : l.renew.level = l.level := by
  unfold Lease.renew; split <;> rfl

theorem State.endFrame_leaseLevel (s : State) : s.endFrame.lease.level = s.lease.level := by
  unfold State.endFrame State.enter
  split <;> rfl

theorem State.releaseBank_lease (s : State) (dest : BankState) : (s.releaseBank dest).lease = s.lease := by
  obtain ⟨_, _, h⟩ := State.releaseBank_changes s dest; rw [h]

theorem State.endTransfer_leaseLevel (s : State) : s.endTransfer.lease.level = s.lease.level := by
  unfold State.endTransfer State.endExchange
  split
  · simp [State.releaseBank_lease]
  · rfl

@[simp] theorem State.takeRequest_level (s : State) (code : Byte) :
    (s.takeRequest code).lease.level = s.lease.level := by
  simp [State.takeRequest, State.enter, State.endTransfer_leaseLevel, State.endFrame_leaseLevel]

theorem State.takeRequest_follow (s : State) (code : Byte) :
    (s.takeRequest code).lease.follow .sending = (s.takeRequest code).lease := by
  simp [State.takeRequest, State.enter, Lease.follow, ExchState.holdsTurn]

/-- The taking ends a transfer alone among the banks: a bank's state stays, or goes from SENDING to READY (R123). -/
theorem State.takeRequest_bank (s : State) (code : Byte) (i : BankId) :
    (s.takeRequest code).bank i = s.bank i
      ∨ (s.bank i).state = .sending ∧ (s.takeRequest code).bank i = { s.bank i with state := .ready } := by
  have he : ∀ j, s.endFrame.bank j = s.bank j := by
    obtain ⟨_, _, h⟩ := State.endFrame_changes s
    intro j; cases j <;> rw [h] <;> rfl
  have ht : ∀ t : State, t.endTransfer.bank i = t.bank i
      ∨ (t.bank i).state = .sending ∧ t.endTransfer.bank i = { t.bank i with state := .ready } := by
    intro t
    unfold State.endTransfer State.endExchange State.releaseBank
    split
    · cases hb : t.exch.bank with
      | none => left; cases i <;> rfl
      | some j =>
        dsimp only
        split
        · rename_i hs
          cases i <;> cases j <;> first
            | (right; exact ⟨hs, rfl⟩)
            | (left; rfl)
        · left; cases i <;> rfl
    · left; rfl
  have hr : (s.takeRequest code).bank i = s.endFrame.endTransfer.bank i := by cases i <;> rfl
  rw [hr, ← he i]
  exact ht s.endFrame

/-! ## Answers -/

/-- A reply handed over at a lease that already follows the turn (R156). -/
theorem State.answer_answers (u : State) (code : Byte) (st : Status) (data : List Byte)
    (hc : u.exch.code = some code) (hl : u.lease.follow .sending = u.lease) :
    u.Answers (u.answer st data) code st data := by
  unfold State.Answers State.answer State.replyReady segmentCount
  rw [hc, hl]
  have hn : (if (code :: st.code :: data).length ≤ Config.payloadLimit then 1
      else ((code :: st.code :: data).length + 63) / Config.payloadLimit) = (data.length + 65) / 64 := by
    have hk : (code :: st.code :: data).length = data.length + 2 := rfl
    have hp : Config.payloadLimit = 64 := rfl
    by_cases h : (code :: st.code :: data).length ≤ Config.payloadLimit
    · rw [if_pos h]; omega
    · rw [if_neg h, hk, hp]
  simp only [Option.getD_some]
  rw [hn]

/-- A request row's command takes the request and carries it out on its parameters (R155). -/
theorem State.onRequest_requests (s : State) (c : RxChar) (code : Byte) (params : List Byte)
    (carryOut : List Byte → State → State) (h : s.Requests c (code :: params)) :
    s.onRequest c code carryOut = .next (carryOut params (s.takeRequest code)) := by
  unfold State.onRequest
  rw [h]
  simp

/-! ## Fields (R190) -/

theorem field_one (n : Nat) : field 1 n = [byteOf n] := by
  simp [field, byteOf]

theorem field_two (w : BitVec 16) : field 2 w.toNat = bytes2 w := by
  simp only [field, bytes2, List.cons.injEq, and_true]
  constructor
  · apply BitVec.eq_of_toNat_eq
    simp [BitVec.extractLsb'_toNat, Nat.shiftRight_eq_div_pow]
  · apply BitVec.eq_of_toNat_eq
    simp [BitVec.extractLsb'_toNat]

theorem field_two_ofNat (n : Nat) : field 2 n = bytes2Of n := by
  unfold bytes2Of
  rw [← field_two]
  simp only [field, List.cons.injEq, and_true]
  constructor
  · apply BitVec.eq_of_toNat_eq
    simp
    omega
  · apply BitVec.eq_of_toNat_eq
    simp

theorem field_three (a : Addr) : field 3 a.toNat = bytes3 a := by
  have := a.isLt
  simp only [field, bytes3, List.cons.injEq, and_true]
  refine ⟨?_, ?_, ?_⟩ <;> apply BitVec.eq_of_toNat_eq <;>
    simp [BitVec.extractLsb'_toNat, Nat.shiftRight_eq_div_pow]
  omega

theorem field_three_ofNat (n : Nat) (h : n ≤ 0xFFFFF) : field 3 n = bytes3 (BitVec.ofNat 20 n) := by
  rw [← field_three]
  congr 1
  simp
  omega

theorem field_four (t : BitVec 32) : field 4 t.toNat = bytes4 t := by
  simp only [field, bytes4, List.cons.injEq, and_true]
  refine ⟨?_, ?_, ?_, ?_⟩ <;> apply BitVec.eq_of_toNat_eq <;>
    simp [BitVec.extractLsb'_toNat, Nat.shiftRight_eq_div_pow]

end Sys2Proof.Machine
end

