-- ==== Sys2Proof/Laws/Operands.lean ====
section
/-! SUPPORT. The parameters of a request against their layouts (R170, R190): a parse answers exactly where the bytes are a
layout. -/

namespace Sys2Proof.Machine

/-! ## Fields -/

theorem word2_toNat (hi lo : Byte) : (word2 hi lo).toNat = 256 * hi.toNat + lo.toNat := by
  have h1 := hi.isLt
  have h2 := lo.isLt
  unfold word2
  rw [BitVec.toNat_append, ← Nat.shiftLeft_add_eq_or_of_lt h2, Nat.shiftLeft_eq]
  omega

theorem value3_toNat (b2 b1 b0 : Byte) : value3 b2 b1 b0 = 65536 * b2.toNat + 256 * b1.toNat + b0.toNat := by
  have h2 := b2.isLt
  have h1 := b1.isLt
  have h0 := b0.isLt
  unfold value3
  rw [BitVec.toNat_append, ← Nat.shiftLeft_add_eq_or_of_lt h0, Nat.shiftLeft_eq, BitVec.toNat_append,
    ← Nat.shiftLeft_add_eq_or_of_lt h1, Nat.shiftLeft_eq]
  omega

theorem byte_field (v : Nat) (b : Byte) : BitVec.ofNat 8 v = b ↔ v % 256 = b.toNat := by
  rw [← BitVec.toNat_inj]
  simp

theorem field_one_eq (n : Nat) (b : Byte) : field 1 n = [b] ↔ n % 256 = b.toNat := by
  simp [field, byte_field]

theorem field_two_eq (n : Nat) (hi lo : Byte) : field 2 n = [hi, lo] ↔ n % 65536 = (word2 hi lo).toNat := by
  have h1 := hi.isLt
  have h2 := lo.isLt
  simp only [field, List.cons.injEq, and_true, byte_field, word2_toNat]
  omega

theorem field_three_eq (n : Nat) (b2 b1 b0 : Byte) :
    field 3 n = [b2, b1, b0] ↔ n % 16777216 = value3 b2 b1 b0 := by
  have h2 := b2.isLt
  have h1 := b1.isLt
  have h0 := b0.isLt
  simp only [field, List.cons.injEq, and_true, byte_field, value3_toNat]
  omega

theorem field_two_word2 (hi lo : Byte) : field 2 (word2 hi lo).toNat = [hi, lo] := by
  have := (word2 hi lo).isLt
  rw [field_two_eq]
  omega

theorem field_two_word (w : BitVec 16) (hi lo : Byte) : field 2 w.toNat = [hi, lo] ↔ word2 hi lo = w := by
  have := w.isLt
  rw [field_two_eq, ← BitVec.toNat_inj]
  omega

theorem field_length (k v : Nat) : (field k v).length = k := by
  induction k with
  | zero => rfl
  | succ k ih => simp [field, ih]

theorem addr3_some (b2 b1 b0 : Byte) (a : Addr) : addr3 b2 b1 b0 = some a ↔ field 3 a.toNat = [b2, b1, b0] := by
  have ha := a.isLt
  have h2 := b2.isLt
  have h1 := b1.isLt
  have h0 := b0.isLt
  rw [field_three_eq, addr3]
  split
  · rw [Option.some.injEq, ← BitVec.toNat_inj, BitVec.toNat_ofNat]
    omega
  · simp
    omega

/-- A byte list begins with a field of three bytes (used with addr3_some). -/
theorem field_three_cons (n : Nat) : ∃ b2 b1 b0, field 3 n = [b2, b1, b0] := ⟨_, _, _, rfl⟩

theorem append_three {b2 b1 b0 : Byte} {l m : List Byte} {n : Nat} :
    b2 :: b1 :: b0 :: l = field 3 n ++ m ↔ field 3 n = [b2, b1, b0] ∧ l = m := by
  obtain ⟨x, y, z, h⟩ := field_three_cons n
  rw [h]
  simp only [List.cons_append, List.nil_append, List.cons.injEq, and_true]
  tauto

theorem append_two {b1 b0 : Byte} {l m : List Byte} {n : Nat} :
    b1 :: b0 :: l = field 2 n ++ m ↔ field 2 n = [b1, b0] ∧ l = m := by
  simp only [field, List.cons_append, List.nil_append, List.cons.injEq, and_true]
  tauto

theorem append_one {b : Byte} {l m : List Byte} {n : Nat} :
    b :: l = field 1 n ++ m ↔ field 1 n = [b] ∧ l = m := by
  simp only [field, List.cons_append, List.nil_append, List.cons.injEq, and_true]
  tauto

/-! ## Codes (R191) -/

theorem codeIn_levels (l : Level) : codeIn levels l = [l.code] := by cases l <;> rfl
theorem codeIn_classes (l : RegionClass) : codeIn classes l = [l.code] := by cases l <;> rfl
theorem codeIn_modes (l : WatchMode) : codeIn modes l = [l.code] := by cases l <;> rfl
theorem codeIn_bankStates (l : BankState) : codeIn bankStates l = [l.code] := by cases l <;> rfl
theorem codeIn_supStates (l : SupState) : codeIn supStates l = [l.code] := by cases l <;> rfl
theorem codeIn_stallActions (l : StallAction) : codeIn stallActions l = [l.code] := by cases l <;> rfl
theorem codeIn_banks (l : BankId) : codeIn [BankId.a, BankId.b] l = [l.code] := by cases l <;> rfl

theorem field_one_bool (b : Bool) : field 1 b.toNat = [byteOfBool b] := by cases b <;> rfl

theorem field_one_mask (a : AlertSet) : field 1 a.maskValue = [a.toMask] := by
  obtain ⟨b0, b1, b2, b3, b4⟩ := a
  cases b0 <;> cases b1 <;> cases b2 <;> cases b3 <;> cases b4 <;> rfl

theorem levelOf_some (b : Byte) (l : Level) : levelOf b = some l ↔ b = l.code := by
  unfold levelOf
  cases l <;> simp only [Level.code] <;> split_ifs <;> simp_all

theorem classOf_some (b : Byte) (k : RegionClass) : classOf b = some k ↔ b = k.code := by
  unfold classOf
  cases k <;> simp only [RegionClass.code] <;> split_ifs <;> simp_all

/-! ## The requests' parameters -/

theorem parseLevel_some (params : List Byte) (lv : Level) (d : Nat) :
    parseLevel params = some (lv, d) ↔
      d < 65536 ∧ (lv = .view ∨ (1 ≤ d ∧ d ≤ 600)) ∧ params = codeIn levels lv ++ field 2 d := by
  rw [codeIn_levels]
  match params with
  | [] => simp [parseLevel]
  | [_] => simp [parseLevel, field]
  | [_, _] => simp [parseLevel, field]
  | _ :: _ :: _ :: _ :: _ => simp [parseLevel, field]
  | [l, hi, lo] =>
    have hlt := (word2 hi lo).isLt
    have he : ([l, hi, lo] = [lv.code] ++ field 2 d) ↔ l = lv.code ∧ field 2 d = [hi, lo] := by
      rw [List.cons_append, List.cons.injEq, List.nil_append, eq_comm (a := [hi, lo])]
    rw [he, field_two_eq, ← levelOf_some, parseLevel]
    cases hl : levelOf l with
    | none => simp
    | some k =>
      cases k with
      | view =>
        simp only [Option.some.injEq, Prod.mk.injEq]
        constructor
        · rintro ⟨rfl, rfl⟩
          exact ⟨hlt, .inl rfl, rfl, by omega⟩
        · rintro ⟨h1, _, rfl, h2⟩
          exact ⟨rfl, by omega⟩
      | tune =>
        dsimp only
        split
        · rename_i hd
          simp only [Bool.and_eq_true, decide_eq_true_eq] at hd
          rw [show Config.leaseMax = 600 from rfl] at hd
          simp only [Option.some.injEq, Prod.mk.injEq]
          constructor
          · rintro ⟨rfl, rfl⟩
            exact ⟨hlt, .inr hd, rfl, by omega⟩
          · rintro ⟨h1, _, rfl, h2⟩
            exact ⟨rfl, by omega⟩
        · rename_i hd
          simp only [Bool.and_eq_true, decide_eq_true_eq] at hd
          rw [show Config.leaseMax = 600 from rfl] at hd
          simp only [reduceCtorEq, false_iff, Option.some.injEq]
          rintro ⟨h1, h3, rfl, h2⟩
          simp only [reduceCtorEq, false_or] at h3
          omega
      | service =>
        dsimp only
        split
        · rename_i hd
          simp only [Bool.and_eq_true, decide_eq_true_eq] at hd
          rw [show Config.leaseMax = 600 from rfl] at hd
          simp only [Option.some.injEq, Prod.mk.injEq]
          constructor
          · rintro ⟨rfl, rfl⟩
            exact ⟨hlt, .inr hd, rfl, by omega⟩
          · rintro ⟨h1, _, rfl, h2⟩
            exact ⟨rfl, by omega⟩
        · rename_i hd
          simp only [Bool.and_eq_true, decide_eq_true_eq] at hd
          rw [show Config.leaseMax = 600 from rfl] at hd
          simp only [reduceCtorEq, false_iff, Option.some.injEq]
          rintro ⟨h1, h3, rfl, h2⟩
          simp only [reduceCtorEq, false_or] at h3
          omega

theorem parsePeek_some (params : List Byte) (a : Addr) (n : Nat) :
    parsePeek params = some (a, n) ↔ 1 ≤ n ∧ n ≤ 32 ∧ params = peekLayout a n := by
  unfold peekLayout
  match params with
  | [] => simp [parsePeek, field]
  | [_] => simp [parsePeek, field]
  | [_, _] => simp [parsePeek, field]
  | [_, _, _] => simp [parsePeek, field]
  | _ :: _ :: _ :: _ :: _ :: _ => simp [parsePeek, field]
  | [b2, b1, b0, m] =>
    have hm := m.isLt
    rw [append_three, ← addr3_some, eq_comm (a := [m]), field_one_eq, parsePeek]
    cases addr3 b2 b1 b0 with
    | none => simp
    | some x =>
      dsimp only
      split
      · rename_i h
        simp only [Bool.and_eq_true, decide_eq_true_eq] at h
        simp only [Option.some.injEq, Prod.mk.injEq]
        constructor
        · rintro ⟨rfl, rfl⟩
          exact ⟨h.1, h.2, rfl, by omega⟩
        · rintro ⟨_, _, rfl, h3⟩
          exact ⟨rfl, by omega⟩
      · rename_i h
        simp only [Bool.and_eq_true, decide_eq_true_eq] at h
        simp only [reduceCtorEq, Option.some.injEq, false_iff]
        rintro ⟨_, _, _, h3⟩
        omega

theorem words2_some (bs : List Byte) (ws : List Word) :
    words2 bs = some ws ↔ bs = ws.flatMap (fun w => field 2 w.toNat) := by
  match bs with
  | [] =>
    cases ws with
    | nil => simp [words2]
    | cons w r => simp [words2, field]
  | [_] =>
    cases ws with
    | nil => simp [words2]
    | cons w r => simp [words2, field]
  | hi :: lo :: rest =>
    cases ws with
    | nil => simp [words2]
    | cons w r =>
      rw [List.flatMap_cons, append_two, field_two_word, words2, ← words2_some rest r]
      cases words2 rest with
      | none => simp
      | some x => simp

theorem parsePoke_some (params : List Byte) (a : Addr) (ws : List Word) :
    parsePoke params = some (a, ws) ↔ 1 ≤ ws.length ∧ ws.length ≤ 24 ∧ params = pokeLayout a ws := by
  unfold pokeLayout
  match params with
  | [] => simp [parsePoke, field]
  | [_] => simp [parsePoke, field]
  | [_, _] => simp [parsePoke, field]
  | [_, _, _] => simp [parsePoke, field]
  | b2 :: b1 :: b0 :: m :: data =>
    have hm := m.isLt
    rw [List.append_assoc, append_three, ← addr3_some, append_one, field_one_eq, ← words2_some, parsePoke]
    cases addr3 b2 b1 b0 with
    | none => simp
    | some x =>
      cases words2 data with
      | none => simp
      | some y =>
        dsimp only
        split
        · rename_i h
          simp only [Bool.and_eq_true, decide_eq_true_eq] at h
          simp only [Option.some.injEq, Prod.mk.injEq]
          constructor
          · rintro ⟨rfl, rfl⟩
            exact ⟨by omega, by omega, rfl, by omega, rfl⟩
          · rintro ⟨_, _, rfl, _, rfl⟩
            exact ⟨rfl, rfl⟩
        · rename_i h
          simp only [Bool.and_eq_true, decide_eq_true_eq] at h
          simp only [reduceCtorEq, Option.some.injEq, false_iff]
          rintro ⟨_, _, _, h3, rfl⟩
          omega

theorem parseForceWords_some (n : Nat) (bs : List Byte) (ws : List ForceWord) :
    parseForceWords n bs = some ws ↔ ws.length = n ∧ bs = ws.flatMap ForceWord.layout := by
  induction n generalizing bs ws with
  | zero =>
    cases bs with
    | nil =>
      cases ws with
      | nil => simp [parseForceWords]
      | cons w r => simp [parseForceWords]
    | cons b r =>
      simp only [parseForceWords, reduceCtorEq, false_iff, List.length_eq_zero_iff]
      rintro ⟨rfl, h⟩
      simp at h
  | succ n ih =>
    cases ws with
    | nil =>
      simp only [List.length_nil, List.flatMap_nil]
      constructor
      · intro h
        unfold parseForceWords at h
        split at h
        · omega
        · split at h <;> simp at h
        · simp at h
      · rintro ⟨h, _⟩
        omega
    | cons w r =>
      have hw : (w :: r).flatMap ForceWord.layout = field 3 w.addr.toNat ++ (field 2 w.fset.toNat ++ (field 2 w.fclr.toNat
          ++ (field 2 w.rel.toNat ++ (field 2 w.pset.toNat ++ (field 2 w.pclr.toNat
          ++ r.flatMap ForceWord.layout))))) := by
        simp [ForceWord.layout]
      rw [hw]
      match bs with
      | a2 :: a1 :: a0 :: s1 :: s0 :: c1 :: c0 :: r1 :: r0 :: p1 :: p0 :: q1 :: q0 :: rest =>
        rw [append_three, append_two, append_two, append_two, append_two, append_two, field_two_word, field_two_word,
          field_two_word, field_two_word, field_two_word, ← addr3_some, parseForceWords]
        have hr := ih rest r
        cases addr3 a2 a1 a0 with
        | none => simp
        | some x =>
          cases hp : parseForceWords n rest with
          | none =>
            rw [hp] at hr
            simp only [reduceCtorEq, false_iff, List.length_cons, Nat.add_right_cancel_iff] at hr ⊢
            tauto
          | some y =>
            rw [hp] at hr
            obtain ⟨wa, w1, w2, w3, w4, w5⟩ := w
            simp only [Option.some.injEq, List.cons.injEq, ForceWord.mk.injEq, List.length_cons,
              Nat.add_right_cancel_iff] at hr ⊢
            rw [hr]
            tauto
      | [] | [_] | [_, _] | [_, _, _] | [_, _, _, _] | [_, _, _, _, _] | [_, _, _, _, _, _] | [_, _, _, _, _, _, _]
      | [_, _, _, _, _, _, _, _] | [_, _, _, _, _, _, _, _, _] | [_, _, _, _, _, _, _, _, _, _]
      | [_, _, _, _, _, _, _, _, _, _, _] | [_, _, _, _, _, _, _, _, _, _, _, _] =>
        simp [parseForceWords, field]

theorem masks_disjoint (a b c d e : Bool) :
    (([a, b, c, d, e].map Bool.toNat).sum ≤ 1) ↔
      (a && b) = false ∧ ((a || b) && c) = false ∧ ((a || b || c) && d) = false ∧ ((a || b || c || d) && e) = false := by
  cases a <;> cases b <;> cases c <;> cases d <;> cases e <;> decide

theorem and_eq_zero_iff (x y : Word) : x &&& y = 0 ↔ ∀ i < 16, (x.getLsbD i && y.getLsbD i) = false := by
  constructor
  · intro h i _
    rw [← BitVec.getLsbD_and, h]
    simp
  · intro h
    apply BitVec.eq_of_getLsbD_eq
    intro i hi
    rw [BitVec.getLsbD_and, h i hi]
    simp

theorem ForceWord.disjoint_iff (f : ForceWord) : f.disjoint = true ↔
    ∀ i < 16, ([f.fset, f.fclr, f.rel, f.pset, f.pclr].map (fun m => (m.getLsbD i).toNat)).sum ≤ 1 := by
  simp only [ForceWord.disjoint, Bool.and_eq_true, decide_eq_true_eq, and_eq_zero_iff, BitVec.getLsbD_or]
  constructor
  · rintro ⟨⟨⟨h1, h2⟩, h3⟩, h4⟩ i hi
    exact (masks_disjoint _ _ _ _ _).mpr ⟨h1 i hi, h2 i hi, h3 i hi, h4 i hi⟩
  · intro h
    exact ⟨⟨⟨fun i hi => ((masks_disjoint _ _ _ _ _).mp (h i hi)).1, fun i hi => ((masks_disjoint _ _ _ _ _).mp (h i hi)).2.1⟩,
      fun i hi => ((masks_disjoint _ _ _ _ _).mp (h i hi)).2.2.1⟩,
      fun i hi => ((masks_disjoint _ _ _ _ _).mp (h i hi)).2.2.2⟩

theorem forceWordsValid_iff (ws : List ForceWord) : forceWordsValid ws = true ↔
    ws.Pairwise (fun x y => x.addr ≠ y.addr) ∧ ∀ f ∈ ws, f.disjoint = true := by
  induction ws with
  | nil => simp [forceWordsValid]
  | cons f r ih =>
    simp only [forceWordsValid, Bool.and_eq_true, ih, List.pairwise_cons, List.all_eq_true, decide_eq_true_eq,
      List.mem_cons, forall_eq_or_imp]
    constructor
    · rintro ⟨⟨h1, h2⟩, h3, h4⟩
      exact ⟨⟨fun g hg => (h2 g hg).symm, h3⟩, h1, h4⟩
    · rintro ⟨⟨h2, h3⟩, h1, h4⟩
      exact ⟨⟨h1, fun g hg => (h2 g hg).symm⟩, h3, h4⟩

theorem parseForce_some (params : List Byte) (ws : List ForceWord) :
    parseForce params = some ws ↔ ForceWellFormed ws ∧ params = forceLayout ws := by
  have hwf : ForceWellFormed ws ↔ 1 ≤ ws.length ∧ ws.length ≤ 4 ∧ forceWordsValid ws = true := by
    unfold ForceWellFormed
    rw [forceWordsValid_iff]
    simp only [ForceWord.disjoint_iff]
  rw [hwf]
  unfold forceLayout
  cases params with
  | nil => simp [parseForce, field]
  | cons m data =>
    have hm := m.isLt
    rw [append_one, field_one_eq, parseForce]
    have hp := parseForceWords_some m.toNat data
    cases hq : parseForceWords m.toNat data with
    | none =>
      have := (hp ws)
      rw [hq] at this
      simp only [reduceCtorEq, false_iff] at this ⊢
      rintro ⟨⟨_, _, _⟩, h2, h3⟩
      exact this ⟨by omega, h3⟩
    | some y =>
      have hy := (hp y).mp hq
      dsimp only
      split
      · rename_i h
        simp only [Bool.and_eq_true, decide_eq_true_eq] at h
        rw [Option.some.injEq]
        constructor
        · rintro rfl
          exact ⟨⟨by omega, by omega, h.2⟩, by omega, hy.2⟩
        · rintro ⟨⟨_, _, _⟩, h2, h3⟩
          have := (hp ws).mpr ⟨by omega, h3⟩
          rw [hq] at this
          exact Option.some.inj this
      · rename_i h
        simp only [Bool.and_eq_true, decide_eq_true_eq] at h
        simp only [reduceCtorEq, false_iff]
        rintro ⟨⟨_, _, h4⟩, h2, h3⟩
        have := (hp ws).mpr ⟨by omega, h3⟩
        rw [hq] at this
        have := Option.some.inj this
        subst this
        exact h ⟨⟨by omega, by omega⟩, h4⟩

theorem parseArm_some (params : List Byte) (m : WatchMode) :
    parseArm params = some m ↔ m ≠ .off ∧ params = codeIn modes m := by
  rw [codeIn_modes]
  match params with
  | [] => simp [parseArm]
  | _ :: _ :: _ => simp [parseArm]
  | [b] =>
    simp only [parseArm, List.cons.injEq, and_true]
    cases m <;> simp only [WatchMode.code] <;> split_ifs <;> simp_all

theorem parseFlag_some (params : List Byte) (b : Bool) : parseFlag params = some b ↔ params = field 1 b.toNat := by
  rw [field_one_bool]
  match params with
  | [] => simp [parseFlag]
  | _ :: _ :: _ => simp [parseFlag]
  | [x] =>
    simp only [parseFlag, List.cons.injEq, and_true]
    cases b <;> simp only [byteOfBool] <;> split_ifs <;> simp_all

theorem parseMask_some (params : List Byte) (m : AlertSet) :
    parseMask params = some m ↔ ∃ b, params = [b] ∧ m = AlertSet.ofMask b := by
  match params with
  | [] => simp [parseMask]
  | _ :: _ :: _ => simp [parseMask]
  | [x] => simp [parseMask, eq_comm]

theorem parseScanConfig_some (params : List Byte) (m : Option Addr) (limit : BitVec 16) (x : StallAction) :
    parseScanConfig params = some (m, limit, x) ↔ ScanLayout m limit x params := by
  have hx : ∀ act : Byte, (if act = 0x00 then some StallAction.none else if act = 0x01 then some .release else none) = some x
      ↔ [act] = codeIn stallActions x := by
    intro act
    rw [codeIn_stallActions]
    cases x <;> simp only [StallAction.code, List.cons.injEq, and_true] <;> split_ifs <;> simp_all
  unfold ScanLayout
  match params with
  | [p, a2, a1, a0, l1, l0, act] =>
    simp only [parseScanConfig]
    cases m with
    | none =>
      have hl : (∃ b2 b1 b0, [p, a2, a1, a0, l1, l0, act] = field 1 0 ++ [b2, b1, b0] ++ field 2 limit.toNat
          ++ codeIn stallActions x) ↔ p = 0x00 ∧ word2 l1 l0 = limit ∧ [act] = codeIn stallActions x := by
        constructor
        · rintro ⟨b2, b1, b0, h⟩
          rw [List.append_assoc, List.append_assoc, append_one, field_one_eq] at h
          obtain ⟨h1, h⟩ := h
          simp only [List.cons_append, List.nil_append, List.cons.injEq] at h
          obtain ⟨_, _, _, h⟩ := h
          rw [append_two, field_two_word] at h
          refine ⟨?_, h.1, h.2⟩
          apply BitVec.eq_of_toNat_eq
          simpa using h1.symm
        · rintro ⟨rfl, h2, h3⟩
          refine ⟨a2, a1, a0, ?_⟩
          rw [List.append_assoc, List.append_assoc, append_one]
          refine ⟨rfl, ?_⟩
          simp only [List.cons_append, List.nil_append, List.cons.injEq, true_and]
          rw [append_two, field_two_word]
          exact ⟨h2, h3⟩
      rw [hl, ← hx act]
      split_ifs with h1 h2 h3 h4 <;> simp_all
      all_goals
        cases addr3 a2 a1 a0 <;> simp_all
    | some a =>
      dsimp only
      rw [List.append_assoc, List.append_assoc, append_one, append_three, append_two, field_two_word, ← addr3_some, ← hx act]
      have h1 : field 1 1 = [p] ↔ p = 0x01 := by
        rw [field_one_eq]
        constructor
        · intro h
          apply BitVec.eq_of_toNat_eq
          simpa using h.symm
        · rintro rfl
          rfl
      rw [h1]
      split_ifs with h1 h2 h3 h4 <;> simp_all
      all_goals
        cases addr3 a2 a1 a0 <;> simp_all
  | [] | [_] | [_, _] | [_, _, _] | [_, _, _, _] | [_, _, _, _, _] | [_, _, _, _, _, _]
  | _ :: _ :: _ :: _ :: _ :: _ :: _ :: _ :: _ =>
    cases m <;> simp [parseScanConfig, field, codeIn]

theorem Region.valid_iff (r : Region) :
    r.valid = true ↔ r.base.toNat ≤ r.limit.toNat ∧ ¬ (r.cls = .absent ∧ r.guard = true) := by
  simp only [Region.valid, Bool.and_eq_true, decide_eq_true_eq, BitVec.le_def, Bool.not_eq_true', Bool.and_eq_false_iff,
    decide_eq_false_iff_not]
  cases r.guard <;> simp

theorem parseRegion_some (params : List Byte) (n : Nat) (r : Region) :
    parseRegion params = some (n, r) ↔ RegionWellFormed n r ∧ RegionLayout n r params := by
  unfold RegionWellFormed RegionLayout
  match params with
  | [i, fl, b2, b1, b0, l2, l1, l0, c] =>
    have hi := i.isLt
    have hl : (∃ flags : Byte, flags.getLsbD 0 = r.enabled ∧ flags.getLsbD 1 = r.guard
        ∧ [i, fl, b2, b1, b0, l2, l1, l0, c] = field 1 n ++ [flags] ++ field 3 r.base.toNat ++ field 3 r.limit.toNat
          ++ codeIn classes r.cls) ↔ n % 256 = i.toNat ∧ fl.getLsbD 0 = r.enabled ∧ fl.getLsbD 1 = r.guard
        ∧ addr3 b2 b1 b0 = some r.base ∧ addr3 l2 l1 l0 = some r.limit ∧ classOf c = some r.cls := by
      rw [codeIn_classes, classOf_some]
      constructor
      · rintro ⟨flags, h1, h2, h⟩
        rw [List.append_assoc, List.append_assoc, List.append_assoc, append_one, field_one_eq] at h
        obtain ⟨h3, h⟩ := h
        rw [List.cons_append, List.cons.injEq, List.nil_append, append_three, append_three, ← addr3_some,
          ← addr3_some, List.cons.injEq] at h
        obtain ⟨rfl, h4, h5, h6, _⟩ := h
        exact ⟨h3, h1, h2, h4, h5, h6⟩
      · rintro ⟨h3, h1, h2, h4, h5, h6⟩
        refine ⟨fl, h1, h2, ?_⟩
        rw [List.append_assoc, List.append_assoc, List.append_assoc, append_one, field_one_eq, List.cons_append,
          List.cons.injEq, List.nil_append, append_three, append_three, ← addr3_some, ← addr3_some, List.cons.injEq]
        exact ⟨h3, rfl, h4, h5, h6, rfl⟩
    rw [hl, parseRegion]
    obtain ⟨en, base, limit, cls, guard⟩ := r
    cases addr3 b2 b1 b0 with
    | none => simp
    | some x =>
      cases addr3 l2 l1 l0 with
      | none => simp
      | some y =>
        cases classOf c with
        | none => simp
        | some k =>
          dsimp only
          split
          · rename_i h
            rw [Bool.and_eq_true, decide_eq_true_eq, Region.valid_iff] at h
            simp only [Option.some.injEq, Prod.mk.injEq, Region.mk.injEq]
            constructor
            · rintro ⟨rfl, rfl, rfl, rfl, rfl, rfl⟩
              exact ⟨h, by omega, rfl, rfl, rfl, rfl, rfl⟩
            · rintro ⟨⟨h0, _⟩, h1, rfl, rfl, rfl, rfl, rfl⟩
              exact ⟨by omega, rfl, rfl, rfl, rfl, rfl⟩
          · rename_i h
            rw [Bool.and_eq_true, decide_eq_true_eq, Region.valid_iff] at h
            simp only [Option.some.injEq, reduceCtorEq, false_iff]
            rintro ⟨⟨h0, h5⟩, h1, rfl, rfl, rfl, rfl, rfl⟩
            exact h ⟨by omega, h5⟩
  | [] | [_] | [_, _] | [_, _, _] | [_, _, _, _] | [_, _, _, _, _] | [_, _, _, _, _, _] | [_, _, _, _, _, _, _]
  | [_, _, _, _, _, _, _, _] | _ :: _ :: _ :: _ :: _ :: _ :: _ :: _ :: _ :: _ :: _ =>
    simp [parseRegion, field, codeIn]

/-! ## Watch item encodings (R192) -/

theorem countOf_some (hi lo : Byte) (n : Nat) : countOf hi lo = some n ↔ 1 ≤ n ∧ n ≤ 256 ∧ field 2 n = [hi, lo] := by
  have := (word2 hi lo).isLt
  rw [field_two_eq]
  simp only [countOf]
  split
  · rename_i hd
    simp only [Bool.and_eq_true, decide_eq_true_eq] at hd
    rw [Option.some.injEq]
    omega
  · rename_i hd
    simp only [Bool.and_eq_true, decide_eq_true_eq] at hd
    simp only [reduceCtorEq, false_iff]
    omega

theorem strideOf_some (hi lo : Byte) (n : Nat) :
    strideOf hi lo = some n ↔ 1 ≤ n ∧ n ≤ 65535 ∧ field 2 n = [hi, lo] := by
  have := (word2 hi lo).isLt
  rw [field_two_eq]
  simp only [strideOf]
  split
  · rw [Option.some.injEq]
    omega
  · simp only [reduceCtorEq, false_iff]
    omega

theorem groupStrideOf_some (b2 b1 b0 : Byte) (n : Nat) :
    groupStrideOf b2 b1 b0 = some n ↔ 1 ≤ n ∧ n ≤ 0xFFFFF ∧ field 3 n = [b2, b1, b0] := by
  have h2 := b2.isLt
  have h1 := b1.isLt
  have h0 := b0.isLt
  have hv := value3_toNat b2 b1 b0
  have hk : Config.lastAddr = 0xFFFFF := rfl
  rw [field_three_eq]
  simp only [groupStrideOf]
  split
  · rename_i hd
    simp only [Bool.and_eq_true, decide_eq_true_eq] at hd
    rw [Option.some.injEq]
    omega
  · rename_i hd
    simp only [Bool.and_eq_true, decide_eq_true_eq] at hd
    simp only [reduceCtorEq, false_iff]
    omega

/-- A parse of an item gives an item in its ranges whose encoding the bytes begin with. -/
theorem parseItem_sound (bs : List Byte) (it : WatchItem) (rest : List Byte) (h : parseItem bs = some (it, rest)) :
    it.wf = true ∧ bs = it.bytes ++ rest := by
  unfold parseItem at h
  split at h
  · rename_i a2 a1 a0 b r
    split at h
    · rename_i a ha
      split at h
      · rename_i hb
        simp only [Option.some.injEq, Prod.mk.injEq] at h
        obtain ⟨rfl, rfl⟩ := h
        rw [addr3_some] at ha
        refine ⟨rfl, ?_⟩
        rw [WatchItem.bytes, List.append_assoc, List.append_assoc, append_one, append_three, append_one, field_one_eq,
          field_one_eq, BitVec.toNat_setWidth]
        exact ⟨rfl, ha, by omega, rfl⟩
      · cases h
    · cases h
  · rename_i a2 a1 a0 r
    rw [Option.map_eq_some_iff] at h
    obtain ⟨a, ha, h⟩ := h
    simp only [Prod.mk.injEq] at h
    obtain ⟨rfl, rfl⟩ := h
    rw [addr3_some] at ha
    refine ⟨rfl, ?_⟩
    rw [WatchItem.bytes, List.append_assoc, append_one, append_three, field_one_eq]
    exact ⟨rfl, ha, rfl⟩
  · rename_i a2 a1 a0 r
    rw [Option.map_eq_some_iff] at h
    obtain ⟨a, ha, h⟩ := h
    simp only [Prod.mk.injEq] at h
    obtain ⟨rfl, rfl⟩ := h
    rw [addr3_some] at ha
    refine ⟨rfl, ?_⟩
    rw [WatchItem.bytes, List.append_assoc, append_one, append_three, field_one_eq]
    exact ⟨rfl, ha, rfl⟩
  · split at h
    · rename_i a n st ha hn hs
      simp only [Option.some.injEq, Prod.mk.injEq] at h
      obtain ⟨rfl, rfl⟩ := h
      rw [addr3_some] at ha
      rw [countOf_some] at hn
      rw [strideOf_some] at hs
      refine ⟨by simp [WatchItem.wf, hn.1, hn.2.1, hs.1, hs.2.1], ?_⟩
      rw [WatchItem.bytes, List.append_assoc, List.append_assoc, List.append_assoc, append_one, append_three, append_two,
        append_two, field_one_eq]
      exact ⟨rfl, ha, hn.2.2, hs.2.2, rfl⟩
    · cases h
  · split at h
    · rename_i a n st g gs ha hn hs hg ht
      simp only [Option.some.injEq, Prod.mk.injEq] at h
      obtain ⟨rfl, rfl⟩ := h
      rw [addr3_some] at ha
      rw [countOf_some] at hn hg
      rw [strideOf_some] at hs
      rw [groupStrideOf_some] at ht
      refine ⟨by simp [WatchItem.wf, hn.1, hn.2.1, hs.1, hs.2.1, hg.1, hg.2.1, ht.1, ht.2.1], ?_⟩
      rw [WatchItem.bytes, List.append_assoc, List.append_assoc, List.append_assoc, List.append_assoc, List.append_assoc,
        append_one, append_three, append_two, append_two, append_two, append_three, field_one_eq]
      exact ⟨rfl, ha, hn.2.2, hs.2.2, hg.2.2, ht.2.2, rfl⟩
    · cases h
  · cases h

/-- The encoding of an item in its ranges parses to it, with the bytes after it left over. -/
theorem parseItem_bytes (it : WatchItem) (rest : List Byte) (h : it.wf = true) :
    parseItem (it.bytes ++ rest) = some (it, rest) := by
  cases it with
  | bit a b =>
    obtain ⟨x, y, z, hx⟩ := field_three_cons a.toNat
    have ha := (addr3_some x y z a).mpr hx
    have hb := b.isLt
    simp only [WatchItem.bytes, hx, field_one, List.cons_append, List.nil_append]
    show (match addr3 x y z with
      | some a => if (byteOf b.toNat).toNat ≤ 15 then some (WatchItem.bit a ((byteOf b.toNat).setWidth 4), rest) else none
      | none => none) = _
    rw [ha]
    have h1 : (byteOf b.toNat).toNat = b.toNat := by simp [byteOf]; omega
    have h2 : (byteOf b.toNat).setWidth 4 = b := by
      apply BitVec.eq_of_toNat_eq
      rw [BitVec.toNat_setWidth, h1]
      omega
    simp only [h1, h2]
    rw [if_pos (by omega)]
  | word a =>
    obtain ⟨x, y, z, hx⟩ := field_three_cons a.toNat
    have ha := (addr3_some x y z a).mpr hx
    simp only [WatchItem.bytes, hx, field_one, List.cons_append, List.nil_append]
    show (addr3 x y z).map (fun a => (WatchItem.word a, rest)) = _
    rw [ha]
    rfl
  | pair a =>
    obtain ⟨x, y, z, hx⟩ := field_three_cons a.toNat
    have ha := (addr3_some x y z a).mpr hx
    simp only [WatchItem.bytes, hx, field_one, List.cons_append, List.nil_append]
    show (addr3 x y z).map (fun a => (WatchItem.pair a, rest)) = _
    rw [ha]
    rfl
  | block a n st =>
    obtain ⟨x, y, z, hx⟩ := field_three_cons a.toNat
    have ha := (addr3_some x y z a).mpr hx
    simp only [WatchItem.wf, Bool.and_eq_true, decide_eq_true_eq] at h
    have hn := (countOf_some (BitVec.ofNat 8 (n / 256)) (BitVec.ofNat 8 n) n).mpr ⟨h.1.1.1, h.1.1.2, by simp [field]⟩
    have hs := (strideOf_some (BitVec.ofNat 8 (st / 256)) (BitVec.ofNat 8 st) st).mpr ⟨h.1.2, h.2, by simp [field]⟩
    have hf : ∀ v, field 2 v = [BitVec.ofNat 8 (v / 256), BitVec.ofNat 8 v] := fun v => by simp [field]
    simp only [WatchItem.bytes, hx, hf, field_one, List.cons_append, List.nil_append]
    show (match addr3 x y z, countOf (BitVec.ofNat 8 (n / 256)) (BitVec.ofNat 8 n),
        strideOf (BitVec.ofNat 8 (st / 256)) (BitVec.ofNat 8 st) with
      | some a, some n, some st => some (WatchItem.block a n st, rest)
      | _, _, _ => none) = _
    rw [ha, hn, hs]
  | grid a n st g gs =>
    obtain ⟨x, y, z, hx⟩ := field_three_cons a.toNat
    obtain ⟨p, q, r, hp⟩ := field_three_cons gs
    have ha := (addr3_some x y z a).mpr hx
    simp only [WatchItem.wf, Bool.and_eq_true, decide_eq_true_eq] at h
    have hf : ∀ v, field 2 v = [BitVec.ofNat 8 (v / 256), BitVec.ofNat 8 v] := fun v => by simp [field]
    have hn := (countOf_some (BitVec.ofNat 8 (n / 256)) (BitVec.ofNat 8 n) n).mpr ⟨by omega, by omega, hf n⟩
    have hs := (strideOf_some (BitVec.ofNat 8 (st / 256)) (BitVec.ofNat 8 st) st).mpr ⟨by omega, by omega, hf st⟩
    have hg := (countOf_some (BitVec.ofNat 8 (g / 256)) (BitVec.ofNat 8 g) g).mpr ⟨by omega, by omega, hf g⟩
    have ht := (groupStrideOf_some p q r gs).mpr ⟨by omega, by omega, hp⟩
    simp only [WatchItem.bytes, hx, hp, hf, field_one, List.cons_append, List.nil_append]
    show (match addr3 x y z, countOf (BitVec.ofNat 8 (n / 256)) (BitVec.ofNat 8 n),
        strideOf (BitVec.ofNat 8 (st / 256)) (BitVec.ofNat 8 st),
        countOf (BitVec.ofNat 8 (g / 256)) (BitVec.ofNat 8 g), groupStrideOf p q r with
      | some a, some n, some st, some g, some gs => some (WatchItem.grid a n st g gs, rest)
      | _, _, _, _, _ => none) = _
    rw [ha, hn, hs, hg, ht]

theorem parseItemList_some (n : Nat) (bs : List Byte) (items : List WatchItem) :
    parseItemList n bs = some items ↔
      items.length = n ∧ (∀ it ∈ items, it.wf = true) ∧ bs = items.flatMap WatchItem.bytes := by
  induction n generalizing bs items with
  | zero =>
    cases bs with
    | nil =>
      simp only [parseItemList, Option.some.injEq, List.length_eq_zero_iff]
      constructor
      · rintro rfl
        simp
      · rintro ⟨rfl, _⟩
        rfl
    | cons b r =>
      simp only [parseItemList, reduceCtorEq, false_iff, List.length_eq_zero_iff]
      rintro ⟨rfl, _, h⟩
      simp at h
  | succ n ih =>
    rw [parseItemList]
    constructor
    · intro h
      split at h
      · cases h
      · rename_i it rest hp
        rw [Option.map_eq_some_iff] at h
        obtain ⟨l, hl, rfl⟩ := h
        obtain ⟨h1, h2, rfl⟩ := (ih _ _).mp hl
        obtain ⟨h3, rfl⟩ := parseItem_sound _ _ _ hp
        exact ⟨by simp [h1], by simpa using ⟨h3, h2⟩, rfl⟩
    · rintro ⟨h1, h2, rfl⟩
      cases items with
      | nil => simp at h1
      | cons it l =>
        rw [List.flatMap_cons, parseItem_bytes it _ (h2 it List.mem_cons_self)]
        dsimp only
        rw [(ih _ l).mpr ⟨by simpa using h1, fun x hx => h2 x (List.mem_cons_of_mem _ hx), rfl⟩]
        rfl

theorem parseItems_some (params : List Byte) (items : List WatchItem) :
    parseItems params = some items ↔ ItemsWellFormed items ∧ params = itemsLayout items := by
  unfold itemsLayout
  cases params with
  | nil => simp [parseItems, field]
  | cons m data =>
    have hm := m.isLt
    rw [append_one, field_one_eq, parseItems, parseItemList_some]
    constructor
    · rintro ⟨h1, h2, h3⟩
      exact ⟨⟨by omega, h2⟩, by omega, h3⟩
    · rintro ⟨⟨h1, h2⟩, h3, h4⟩
      exact ⟨by omega, h2, h4⟩

end Sys2Proof.Machine
end

