-- ==== Sys2Proof/Tests/Slice0.lean ====
section
/-! SUPPORT. Tests of the model against the spec's worked values, the WellFormed smoke tests, and for every statement with
hypotheses the concrete states and operands that meet them. -/

namespace Sys2Proof.Tests

open Sys2Proof.Machine

/-! ## Helpers -/

/-- The character the host sends for a byte. -/
def ch (b : Byte) : RxChar := RxChar.ofByte b

/-- A character whose parity bit is wrong. -/
def flaggedCh : RxChar := ⟨0x00, true, true⟩

/-- A character that brings any frame to a wrong sum unless its sum is 0. -/
def zeroCh : RxChar := ch 0x00

/-- A state whose receiver holds a frame that lacks only its check byte. -/
def holding (s : State) (node kind : Byte) (payload : List Byte) : State :=
  { s with
    rx := ⟨.assembling ⟨node :: kind :: byteOf payload.length :: payload, false, false⟩, false⟩,
    exch := { s.exch with state := if s.exch.state = .idle then .receiving else s.exch.state } }

/-- The check byte of a frame. -/
def checkCh (node kind : Byte) (payload : List Byte) : RxChar :=
  ch (0 - byteSum (node :: kind :: byteOf payload.length :: payload))

/-- A state at the final byte of a REQUEST to node 0, the strapped node of State.reset. -/
def req (payload : List Byte) (s : State := State.reset) : State := holding s 0x00 0x10 payload

/-- The check byte of that REQUEST. -/
def fin (payload : List Byte) : RxChar := checkCh 0x00 0x10 payload

/-- The next state of a command, the state itself where it has none. -/
def after (i : Instr) (s : State) : State :=
  match exec i s with
  | .next t => t
  | _ => s

/-- The reply of a request row's command. -/
def replyOf (row : RxChar → Instr) (payload : List Byte) (s : State := State.reset) : Option (List Byte) :=
  (after (row (fin payload)) (req payload s)).exch.reply

/-- The pins of a controller read of a word. -/
def readPins (a : Addr) : BusPins := ⟨false, true, false, false, false, a, 0⟩

/-- The pins of a controller write of both lanes. -/
def writePins (a : Addr) (d : Word) : BusPins := ⟨false, false, true, false, false, a, d⟩

/-- Region 0 alone, with a class and a guard over every address. -/
def mapped (cls : RegionClass) (guard : Bool) : List Region :=
  ⟨true, 0, 0xFFFFF, cls, guard⟩ :: List.replicate 7 ⟨false, 0, 0, .input, false⟩

/-- A region map with a hole: nothing above 0FFFFH. -/
def holed (cls : RegionClass) : List Region :=
  ⟨true, 0, 0x0FFFF, cls, false⟩ :: List.replicate 7 ⟨false, 0, 0, .input, false⟩

/-- A lease of a level with 60 s left. -/
def lease (lv : Level) : Lease := ⟨lv, some 600, 60000000, .running⟩

/-- A state at a level. -/
def at' (lv : Level) (s : State := State.reset) : State := { s with lease := lease lv }

/-! ## Commands that name no event of the spec (WellFormed) -/

theorem test_wellFormed_accessTake : Instr.wellFormed (.accessTake ⟨true, true, false, false, false, 0, 0⟩) = false := by
  decide

theorem test_wellFormed_accessTake_lanes :
    Instr.wellFormed (.accessTake ⟨false, true, false, true, true, 0, 0⟩) = false := by decide

theorem test_wellFormed_cycleEnd : Instr.wellFormed (.cycleEnd (readPins 0)) = false := by decide

theorem test_wellFormed_frameStart_data : Instr.wellFormed (.frameStart (ch 0xC2)) = false := by decide

theorem test_wellFormed_frameStart_flag : Instr.wellFormed (.frameStart ⟨0xC3, true, true⟩) = false := by decide

theorem test_wellFormed_overlongLength : Instr.wellFormed (.overlongLength (ch 64)) = false := by decide

theorem test_wellFormed_finalBytes :
    ([.ignoredFrame, .requestOtherNode, .broadcastRequest, .continueFrame, .abortFrame, .emptyRequest, .unknownRequest,
      .probe, .identify, .status, .level, .sessionClear, .peek, .poke, .sync, .force, .releaseAll, .forceList, .watchDefine,
      .watchAppend, .watchList, .watchArm, .watchStop, .snapRead, .snapAck, .scanConfig, .scanStats, .regionSet,
      .regionList, .logRead, .alertClear, .alertEnable] : List (RxChar → Instr)).all
      (fun row => !(row flaggedCh).wellFormed && (row zeroCh).wellFormed) = true := by decide

/-- The table gives no row any bits, so no word spells a command. -/
theorem test_decodeTableWord_none : decodeTableWord 16 0x1234 = none := by decide

theorem test_withFetchWord_unchanged : State.withFetchWord State.reset 16 0x1234 = State.reset := rfl

/-! ## States -/

/-- A held access of both lanes to a WORK word. -/
def acc (a : Addr) (write : Bool) (d : Word := 0) (ended : Bool := false) : Access :=
  ⟨a, write, ⟨true, true⟩, d, .region 0 .work false, ended⟩

/-- A grant with what stands at the memory port. -/
def granted (h : Claimant) (stage : GrantStage) (m : MemPort) (s : State := State.reset) : State :=
  { s with arb := { s.arb with grant := some ⟨h, stage⟩ }, mport := m }

/-- Memory with one word written. -/
def ram (a : Addr) (w : Word) : Memory := Memory.writeWord [] a w Lanes.both

/-- A fill of bank A over words 00600H and 00601H, each watched by a WORD item, with these element states and view. -/
def fillOf (st0 st1 : ElemState) (frozen : List ForceEntry := []) (s : State := State.reset) : State :=
  { s with
    watch := ⟨[.word 0x00600, .word 0x00601], [⟨0x00600, 0⟩, ⟨0x00601, 1⟩], 1, .continuous⟩,
    fill := some ⟨.a, frozen, [st0, st1]⟩,
    bankA := { Bank.empty with
      state := .filling, header := { Header.blank with elementCount := 2, itemCount := 2 },
      layout := [⟨.word, 1, none⟩, ⟨.word, 1, none⟩] } }

/-- An operation that is WAITING. -/
def op (kind : OpKind) (a : Addr) (origin : Origin) : Operation := ⟨kind, a, origin, false, none, false⟩

/-- The same operation as the head of the queue, in a WORK region. -/
def head (kind : OpKind) (a : Addr) (origin : Origin) (active : Bool := false) : Operation :=
  ⟨kind, a, origin, active, some (.region 0 .work false), false⟩

/-- The head of the queue with its grant and what stands at the memory port. -/
def serving (kind : OpKind) (a : Addr) (origin : Origin) (stage : GrantStage) (m : MemPort) (s : State := State.reset) :
    State :=
  granted .q stage m { s with ops := [head kind a origin true] }

/-- An exchange in AWAIT_CONTINUE, its first segment of two sent, bank A under transfer. -/
def awaiting : State :=
  { State.reset with
    exch := ⟨.awaitContinue, some 0x38, some (List.replicate 100 0), some 2, some 0, some 1, some 7, some .a, 0, none, false,
      none⟩,
    bankA := { Bank.empty with state := .sending } }

/-- An exchange in SENDING, the segment at a position of two to go, bank A under transfer. -/
def sending (k : Nat) : State :=
  { State.reset with
    exch := ⟨.sending, some 0x38, some (List.replicate 100 0), some 2, none, some (k + 1), none, some .a, 0,
      some (.segment k), false, none⟩,
    bankA := { Bank.empty with state := .sending } }

/-- The same with the frame on LTX. -/
def transmitting (k : Nat) : State :=
  { sending k with exch := { (sending k).exch with lde := true, ltx := (sending k).outgoing } }

/-- A supervisor with marker 00500H and a limit of 1 (100 µs), in a state with an elapsed time. -/
def supervised (st : SupState) (elapsed : Option Micros) (x : StallAction := .release) : Supervisor :=
  ⟨some 0x00500, 1, x, st, 0x0131, none, elapsed, none, none, none⟩

/-! ## The access path -/

theorem test_accessTake_read_forwarded :
    (after (.accessTake (readPins 0x00430)) State.reset).mport = .reading 0x00430 := by decide

/-- Section 2.4's worked sequence, row 7: a lower-lane write is recorded with its upper lane as 00H. -/
theorem test_accessTake_blocked_write :
    (after (.accessTake ⟨false, false, true, true, false, 0x00421, 0xAB57⟩)
      { State.reset with regions := mapped .output true, sup := { Supervisor.reset with seq := 0x013A } }).guardLog
      = ⟨[⟨0x00421, 0x0057, ⟨false, true⟩, 0x013A, 0⟩], 0⟩ := by decide

theorem test_cycleEnd_frees_port :
    (after (.cycleEnd idleBus) { State.reset with port := .done (acc 0x00430 false) (some 0x1111) }).port = .idle := by decide

/-- Section 7's worked fill, row 2: a clear of bit 0 and a set of bit 8 make 0005H read 0104H. -/
theorem test_controllerRead_overlaid :
    (after .controllerReadDataReturn (granted .c .read (.reading 0x00012)
      { State.reset with
        port := .active (acc 0x00012 false), mem := ram 0x00012 0x0005, forces := [⟨0x00012, 0x0100, 0x0001⟩] })).port
      = .done (acc 0x00012 false) (some 0x0104) := by decide

theorem test_controllerRead_reserves :
    (after .controllerReadDataReturn (granted .c .read (.reading 0x00012)
      { State.reset with port := .active (acc 0x00012 false), time := 7 })).arb.reservation = some 7250 := by decide

theorem test_controllerWrite_lower_lane :
    (after .controllerWriteReachesMemory (granted .c .write (.writing 0x00430 0xAAFF ⟨false, true⟩)
      { State.reset with
        port := .active { acc 0x00430 true with lanes := ⟨false, true⟩ }, mem := ram 0x00430 0x8023 })).mem.readWord 0x00430
      = 0x80FF := by decide

theorem test_controllerWrite_marker :
    (after .controllerWriteReachesMemory (granted .c .write (.writing 0x00500 1 Lanes.both)
      { State.reset with port := .active (acc 0x00500 true 1), sup := supervised .timing (some 80) })).sup.lastPeriod
      = some 80 := by decide

theorem test_reservationExpiry_grants_engine :
    (after .reservationExpiry
      { State.reset with
        ops := [head (.read 0) 0x00430 .peek], arb := { Arbiter.reset with waitQ := true, reservation := some 250 } }).mport
      = .reading 0x00430 := by decide

theorem test_captureRead_then_write :
    (after .captureReadReturn (granted .c (.captureRead 0x3000 Lanes.both) (.reading 0x00601)
      { fillOf .pending .pending with port := .active (acc 0x00601 true 0x3000), mem := ram 0x00601 0x2000 })).mport
      = .writing 0x00601 0x3000 Lanes.both := by decide

theorem test_fillRead_captures :
    (after .fillReadReturn (granted .f .read (.reading 0x00600)
      { fillOf .pending .pending with mem := ram 0x00600 0x1000 })).bankA.words[0]? = some 0x1000 := by decide

theorem test_fillRead_completes :
    (after .fillReadReturn (granted .f .read (.reading 0x00601) (fillOf .captured .pending))).latched.snapReady = true := by
  decide

theorem test_readOperation_answers_peek :
    (after .readOperationDataReturn (serving (.read 0) 0x00430 .peek .read (.reading 0x00430)
      { State.reset with
        completion := some (.peek [none]), mem := ram 0x00430 0x1111,
        exch := { Exchange.reset with state := .executing, code := some 0x10 } })).exch.reply
      = some [0x10, 0x00, 0x11, 0x11] := by decide

theorem test_writeOperation_writes :
    (after .writeOperationReachesMemory (serving (.write 0x4444) 0x00600 .poke .write
      (.writing 0x00600 0x4444 Lanes.both))).mem.readWord 0x00600 = 0x4444 := by decide

theorem test_modifyRead_substitutes :
    (after .modifyReadComplete (serving (.modify 0x0010 0x0001) 0x00430 .force .read (.reading 0x00430)
      { State.reset with mem := ram 0x00430 0x8023, forces := [⟨0x00430, 0x0001, 0x8000⟩] })).mport
      = .writing 0x00430 0x0033 Lanes.both := by decide

theorem test_modifyWrite_retires :
    (after .modifyWriteReachesMemory (serving (.modify 0x0010 0) 0x00430 .force .write
      (.writing 0x00430 0x8033 Lanes.both))).ops = [] := by decide

/-! ## Reset, pins and time -/

theorem test_sysrstnFall_carries_write :
    (after .sysrstnFall (granted .c .write (.writing 0x00430 0x1234 Lanes.both)
      { State.reset with port := .active (acc 0x00430 true 0x1234), forces := [⟨0x00012, 1, 0⟩] })).mem.readWord 0x00430
      = 0x1234 := by decide

theorem test_sysrstnRise_samples_straps :
    (after (.sysrstnRise 0x3 0x2 true) State.reset.resetBlocks).strapNode = 0x3 := by decide

theorem test_ctlrunRise : (after .ctlrunRise { State.reset with sup := supervised .inactive none }).sup.state
    = .waitingFirst := by decide

theorem test_ctlrunFall : (after .ctlrunFall
    { State.reset with ctlrun := true, sup := supervised .timing (some 5) }).sup.elapsed = none := by decide

/-- R139: the limit of 1 is 100 µs, and expiry needs more than it. -/
theorem test_scanLimit_not_at_100 : (after .scanLimitExpiry
    { State.reset with sup := supervised .timing (some 100) }).sup.state = .timing := by decide

theorem test_scanLimit_at_101 : (after .scanLimitExpiry
    { State.reset with sup := supervised .timing (some 101) }).sup.state = .stalled := by decide

theorem test_leaseExpiry : (after .leaseExpiry
    { at' .tune with lease := { lease .tune with remaining := 0 }, forces := [⟨0x00012, 1, 0⟩] }).forces = [] := by decide

theorem test_continuationLimit : (after .continuationLimit
    { awaiting with exch := { awaiting.exch with contTime := some 1000000 } }).bankA.state = .ready := by decide

theorem test_timeBaseTick_wraps : (after .timeBaseTick { State.reset with time := 0xFFFFFFFF }).time = 0 := by decide

theorem test_timeBaseTick_lease : (after .timeBaseTick (at' .tune)).lease.remaining = 59999999 := by decide

/-! ## The link -/

/-- R189's worked frame: the REQUEST's check byte is A2H. -/
theorem test_check_byte_request : (0 - byteSum [0x03, 0x10, 0x05, 0x10, 0x00, 0x04, 0x30, 0x02] : Byte) = 0xA2 := by decide

/-- R189's worked frame: the REPLY as the part sends it. -/
theorem test_frame_reply : frameBytes 0x03 .reply 0 [0x10, 0x00, 0x11, 0x11, 0xA2, 0x22]
    = [0xC3, 0x03, 0x20, 0x06, 0x10, 0x00, 0x11, 0x11, 0xA2, 0x22, 0xE1] := by decide

/-- R175: a PEEK of 32 words gives 66 bytes, one PART and a final REPLY. -/
theorem test_segments_66 : segmentCount (List.replicate 66 0) = 2 := by decide

theorem test_frameStart : (after (.frameStart (ch 0xC3)) State.reset).exch.state = .receiving := by decide

theorem test_frameCharacter : (after (.frameCharacterTaken (ch 0x10))
    { State.reset with rx := ⟨.assembling ⟨[0x03], false, false⟩, false⟩ }).rx.state
      = .assembling ⟨[0x03, 0x10], false, false⟩ := by decide

theorem test_overlongLength : (after (.overlongLength (ch 65))
    { State.reset with rx := ⟨.assembling ⟨[0x03, 0x10], false, false⟩, false⟩ }).exch.faults = 1 := by decide

theorem test_interByteTimeout : (after .interByteTimeout (req [])).latched.linkFault = true := by decide

theorem test_badFrame : (after (.badFrame (ch 0x55)) (req [0x03])).exch.faults = 1 := by decide

theorem test_turnViolation : (after (.turnViolationAtFinalByte (fin []))
    { State.reset with rx := ⟨.assembling ⟨[0x00, 0x10, 0x00], false, true⟩, false⟩ }).exch.faults = 1 := by decide

theorem test_ignoredFrame : (after (.ignoredFrame (checkCh 0x00 0x20 [])) (holding awaiting 0x00 0x20 [])).exch.state
    = .awaitContinue := by decide

theorem test_requestOtherNode : (after (.requestOtherNode (checkCh 0x03 0x10 [0x01])) (holding awaiting 0x03 0x10 [0x01])).exch.state
    = .idle := by decide

theorem test_broadcastRequest_releases : (after (.broadcastRequest (checkCh 0x0F 0x10 [0x21]))
    (holding { at' .tune with forces := [⟨0x00012, 1, 0⟩] } 0x0F 0x10 [0x21])).forces = [] := by decide

theorem test_broadcastRequest_ignored : (after (.broadcastRequest (checkCh 0x0F 0x10 [0x05]))
    (holding (at' .tune) 0x0F 0x10 [0x05])).lease.level = .tune := by decide

theorem test_continue_next : (after (.continueFrame (checkCh 0x00 0x41 [])) (holding awaiting 0x00 0x41 [])).exch.send
    = some (.segment 1) := by decide

theorem test_continue_again : (after (.continueFrame (checkCh 0x00 0x40 [])) (holding awaiting 0x00 0x40 [])).exch.send
    = some (.segment 0) := by decide

theorem test_abort : (after (.abortFrame (checkCh 0x00 0x50 [])) (holding awaiting 0x00 0x50 [])).bankA.state = .ready := by
  decide

theorem test_break : (after .breakLine awaiting).exch.state = .idle := by decide

theorem test_lrxReturnsToMark : (after .lrxReturnsToMark { State.reset with rx := ⟨.hunt, true⟩ }).rx.awaitMark = false := by
  decide

theorem test_frameTransmitStart : (after .frameTransmitStart (sending 0)).exch.lde = true := by decide

theorem test_frameSent_part : (after .frameSent (transmitting 0)).exch.state = .awaitContinue := by decide

theorem test_frameSent_reply : (after .frameSent (transmitting 1)).bankA.state = .sent := by decide

/-! ## Requests -/

theorem test_emptyRequest : replyOf .emptyRequest [] = some [0x00, 0x02] := by decide

theorem test_unknownRequest : replyOf .unknownRequest [0x99] = some [0x99, 0x01] := by decide

theorem test_probe : replyOf .probe [0x01, 0xAA, 0x55] = some [0x01, 0x00, 0xAA, 0x55] := by decide

theorem test_identify : replyOf .identify [0x02]
    = some [0x02, 0x00, 0x0A, 0x52, 0x01, 0x00, 0x08, 0x20, 0x20, 0x40, 0x01, 0x00, 0x10] := by decide

/-- R194's table at State.reset: every latch clear, every enable set, all else 0. -/
theorem test_status : replyOf .status [0x03] = some [0x03, 0x00, 0, 0, 0, 0, 0, 0x1F, 0, 0, 0, 0, 0, 0, 0, 0, 0, 0, 0, 0, 0,
    0, 0, 0, 0] := by decide

theorem test_level_tune : (after (.level (fin [0x04, 0x01, 0x02, 0x58])) (req [0x04, 0x01, 0x02, 0x58])).lease
    = ⟨.tune, some 600, 60000000, .paused⟩ := by decide

theorem test_level_over_600 : replyOf .level [0x04, 0x01, 0x02, 0x59] = some [0x04, 0x02] := by decide

theorem test_sessionClear : (after (.sessionClear (fin [0x05])) (req [0x05] (fillOf .pending .pending))).watch
    = ⟨[], [], 2, .off⟩ := by decide

theorem test_peek_range : replyOf .peek [0x10, 0x0F, 0xFF, 0xFF, 0x02] = some [0x10, 0x04] := by decide

theorem test_peek_absent_at_once : replyOf .peek [0x10, 0x04, 0x00, 0x00, 0x02] { State.reset with regions := mapped .absent false }
    = some [0x10, 0x00, 0x00, 0x00, 0x00, 0x00] := by decide

theorem test_poke_running : replyOf .poke [0x11, 0x00, 0x00, 0x00, 0x01, 0x12, 0x34]
    { at' .service with regions := mapped .program false, ctlrun := true } = some [0x11, 0x0A] := by decide

theorem test_poke_queues : (after (.poke (fin [0x11, 0x00, 0x06, 0x00, 0x01, 0x44, 0x44]))
    (req [0x11, 0x00, 0x06, 0x00, 0x01, 0x44, 0x44] (at' .tune))).mport = .writing 0x00600 0x4444 Lanes.both := by decide

theorem test_sync_at_once : replyOf .sync [0x12] = some [0x12, 0x00] := by decide

theorem test_force_masks : (after (.force (fin [0x20, 1, 0, 0, 0x12, 1, 0, 0, 1, 0, 0, 0, 0, 0, 0]))
    (req [0x20, 1, 0, 0, 0x12, 1, 0, 0, 1, 0, 0, 0, 0, 0, 0] (at' .tune))).forces = [⟨0x00012, 0x0100, 0x0001⟩] := by decide

theorem test_force_shared_bit : replyOf .force [0x20, 1, 0, 0, 0x12, 0, 1, 0, 1, 0, 0, 0, 0, 0, 0] (at' .tune)
    = some [0x20, 0x02] := by decide

theorem test_releaseAll : (after (.releaseAll (fin [0x21]))
    (req [0x21] { at' .tune with forces := [⟨0x00012, 1, 0⟩] })).forces = [] := by decide

theorem test_forceList : replyOf .forceList [0x22] { at' .tune with forces := [⟨0x00012, 0x0100, 0x0001⟩] }
    = some [0x22, 0x00, 0x01, 0x00, 0x00, 0x12, 0x01, 0x00, 0x00, 0x01] := by decide

/-- Section 6's worked example, item 4: a GRID of three groups of two words. -/
theorem test_watchDefine_grid : (after (.watchDefine (fin [0x30, 1, 5, 0, 0x10, 0, 0, 2, 0, 8, 0, 3, 0, 1, 0]))
    (req [0x30, 1, 5, 0, 0x10, 0, 0, 2, 0, 8, 0, 3, 0, 1, 0])).watch.elements
      = [⟨0x01000, 0⟩, ⟨0x01008, 0⟩, ⟨0x01100, 0⟩, ⟨0x01108, 0⟩, ⟨0x01200, 0⟩, ⟨0x01208, 0⟩] := by decide

/-- Section 6's worked example: FFFF0H with a count of 32 passes FFFFFH. -/
theorem test_watchAppend_range : replyOf .watchAppend [0x31, 1, 4, 0x0F, 0xFF, 0xF0, 0, 32, 0, 1] = some [0x31, 0x04] := by
  decide

theorem test_watchList : replyOf .watchList [0x32] (fillOf .pending .pending)
    = some [0x32, 0, 0, 1, 2, 2, 0, 2, 2, 0, 6, 0, 2, 0, 6, 1] := by decide

theorem test_watchArm_conflict : replyOf .watchArm [0x33, 0x01] = some [0x33, 0x09] := by decide

theorem test_watchStop : (after (.watchStop (fin [0x34])) (req [0x34] (fillOf .pending .pending))).watch.mode = .off := by decide

theorem test_snapRead_none : replyOf .snapRead [0x38, 0x00] = some [0x38, 0x0B] := by decide

theorem test_snapAck_frees : (after (.snapAck (fin [0x39]))
    (req [0x39] { State.reset with bankA := { Bank.empty with state := .sent } })).bankA.state = .empty := by decide

theorem test_scanConfig_conflict : replyOf .scanConfig [0x40, 1, 0, 5, 0, 0, 1, 1]
    { at' .service with regions := mapped .input false } = some [0x40, 0x09] := by decide

theorem test_scanStats_clears : (after (.scanStats (fin [0x41, 1]))
    (req [0x41, 1] { State.reset with sup := { Supervisor.reset with minPeriod := some 3, maxPeriod := some 9 } })).sup.minPeriod
      = none := by decide

theorem test_regionSet : (after (.regionSet (fin [0x50, 7, 1, 0, 0, 0, 3, 0xFF, 0xFF, 2]))
    (req [0x50, 7, 1, 0, 0, 0, 3, 0xFF, 0xFF, 2] (at' .service))).regions[7]? = some ⟨true, 0, 0x3FFFF, .work, false⟩ := by
  decide

theorem test_regionList_first : (replyOf .regionList [0x51]).map (fun r => r.take 11)
    = some [0x51, 0x00, 0, 1, 0, 0, 0, 0x0F, 0xFF, 0xFF, 2] := by decide

theorem test_logRead : replyOf .logRead [0x58]
    { State.reset with guardLog := ⟨[⟨0x00421, 0x0057, ⟨false, true⟩, 0x013A, 1⟩], 3⟩ }
      = some [0x58, 0x00, 1, 3, 0, 4, 0x21, 0, 0x57, 1, 0x01, 0x3A, 0, 0, 0, 1] := by decide

/-- Section 11's worked sequence, row 5: mask 12H clears GUARD and LINK_FAULT. -/
theorem test_alertClear : (after (.alertClear (fin [0x60, 0x12]))
    (req [0x60, 0x12] { State.reset with latched := ⟨true, true, false, false, true⟩ })).latched
      = ⟨true, false, false, false, false⟩ := by decide

theorem test_alertEnable : (after (.alertEnable (fin [0x61, 0x1E])) (req [0x61, 0x1E])).enabled
    = ⟨false, true, true, true, true⟩ := by decide

/-! ## Witnesses: states and operands that meet the hypotheses of each statement, clause by clause -/

theorem witness_FinalByteJudged :
    (req [0x03]).rx.state = .assembling ⟨[0x00, 0x10, 0x01, 0x03], false, false⟩ ∧ (req [0x03]).listening = true := by decide

theorem witness_RequestTaken :
    ((req [0x03]).LinkOk ∧ (req [0x03]).Requests (fin [0x03]) [0x03])
    ∧ (req [0x03] awaiting).LinkOk ∧ (req [0x03] awaiting).Requests (fin [0x03]) [0x03] := by decide

/-- C with a count of 3 against an engine, and at 4 without one, for a read and for a write with and without an element
PENDING at its address. -/
def cWaits (write : Bool) (count : Nat) (waitQ : Bool) (s : State := State.reset) : State :=
  { s with
    port := .active (acc 0x00601 write 0x3000), arb := { Arbiter.reset with waitC := true, count := count, waitQ := waitQ } }

theorem witness_GrantDecision_c :
    ((cWaits false 3 true).arb.waitC = true ∧ (cWaits false 3 true).arb.count < 4
      ∧ (cWaits false 3 true).port = .active (acc 0x00601 false 0x3000))
    ∧ ((cWaits true 4 false).arb.waitC = true ∧ ¬ ((cWaits true 4 false).arb.waitF = true ∨ (cWaits true 4 false).arb.waitQ = true)
      ∧ (cWaits true 4 false).pendingAt 0x00601 = false)
    ∧ (cWaits true 0 false (fillOf .pending .pending)).pendingAt 0x00601 = true := by decide

/-- At a count of 4 with both engines waiting the decision goes to the one other than the last. -/
def enginesWait (last : Engine) (kind : OpKind) (a : Addr) : State :=
  { fillOf .pending .pending with
    ops := [head kind a .poke],
    arb := { Arbiter.reset with waitC := true, waitF := true, waitQ := true, count := 4, lastEngine := last } }

theorem witness_GrantDecision_engines :
    (¬ ((enginesWait .q (.write 1) 0x00430).arb.count < 4) ∧ (enginesWait .q (.write 1) 0x00430).lowestPending = some 0x00600)
    ∧ ((enginesWait .f (.write 1) 0x00430).ops = [head (.write 1) 0x00430 .poke]
      ∧ (enginesWait .f (.write 1) 0x00430).pendingAt 0x00430 = false)
    ∧ (enginesWait .f (.write 1) 0x00600).pendingAt 0x00600 = true
    ∧ (enginesWait .f (.read 0) 0x00600).ops = [head (.read 0) 0x00600 .poke]
    ∧ (State.reset.arb.waitF = false ∧ State.reset.arb.waitQ = false ∧ State.reset.arb.waitC = false)
    ∧ (fillOf .captured .pending).lowestPending = some 0x00601 ∧ (fillOf .captured .pending).pendingAt 0x00600 = false := by
  decide

/-- Due at 101 µs of a limit of 100 µs and in TIMING alone. -/
theorem witness_MarkerOnSupervisor :
    ((supervised .timing (some 101)).state = .timing ∧ (supervised .timing (some 101)).due = true)
    ∧ (supervised .timing (some 100)).due = false ∧ (supervised .stalled (some 500)).due = false
    ∧ (supervised .waitingFirst none).due = false ∧ (supervised .inactive none).due = false := by decide

theorem witness_MarkerOnCaptureUnit :
    State.reset.watch.mode = .off
    ∧ ((fillOf .pending .pending).watch.mode ≠ .off ∧ (fillOf .pending .pending).fill ≠ none)
    ∧ (({ fillOf .pending .pending with fill := none, bankB := { Bank.empty with state := .sent } } : State).bankA.state ≠ .empty)
    ∧ (∃ e ∈ ({ fillOf .pending .pending with fill := none, bankA := Bank.empty } : State).watch.elements,
        (lookup State.reset.regions e.addr).isAbsent = false)
    ∧ (∀ e ∈ (fillOf .pending .pending).watch.elements, (lookup (mapped .absent false) e.addr).isAbsent = true) := by decide

/-- The fill of the last clause: its bank is READY at the marker. -/
theorem witness_MarkerOnCaptureUnit_absent :
    let s : State := { fillOf .pending .pending with fill := none, bankA := Bank.empty, regions := mapped .absent false }
    (s.judgeMarker none).bankA.state = .ready ∧ (s.judgeMarker none).latched.snapReady = true
      ∧ (s.judgeMarker none).arb.waitF = false := by decide

theorem witness_WordCaptured :
    (fillOf .pending .pending).fill = some ⟨.a, [], [.pending, .pending]⟩
    ∧ [ElemState.pending, .pending].length = (fillOf .pending .pending).watch.elements.length
    ∧ ((fillOf .pending .pending).bank .a).words.length = 256 ∧ ((fillOf .pending .pending).bank .a).flags.length = 256
    ∧ ((fillOf .pending .pending).bank .a).header.elementCount = (fillOf .pending .pending).watch.elements.length :=
  ⟨rfl, rfl, List.length_replicate, List.length_replicate, rfl⟩

/-- A queue whose head is ACTIVE and behind it a PEEK word and a POKE word. -/
def queued : State :=
  granted .q .read (.reading 0x00430) { State.reset with
    ops := [head (.read 0) 0x00430 .peek true, op (.read 1) 0x00431 .peek, op (.write 5) 0x00600 .poke],
    completion := some (.peek [none, none]), exch := { Exchange.reset with state := .executing, code := some 0x10 } }

theorem queued_pathOk : queued.PathOk := by decide

theorem witness_QueueOrder :
    (queued.queueOk = true ∧ queued.ops ≠ [])
    ∧ (lookup (mapped .absent false) 0x00431).isAbsent = true ∧ (op (.read 1) 0x00431 .peek).cls = none
    ∧ (lookup State.reset.regions 0x00600).isAbsent = false ∧ (op (.write 5) 0x00600 .poke).active = false := by decide

theorem witness_QueueOrder_gone :
    ({ queued with ops := [head (.read 0) 0x00430 .peek true, op (.read 1) 0x00431 .peek], regions := mapped .absent false } :
      State).ops = head (.read 0) 0x00430 .peek true :: ([op (.read 1) 0x00431 .peek] ++ [])
    ∧ (queued.completion = some (.peek [none, none]))
    ∧ ({ op (.read 1) 0x00431 .peek with dropped := true } : Operation).dropped = true
    ∧ (∀ i, (op (.write 5) 0x00600 .poke).kind ≠ .read i) ∧ (∀ i, (op (.modify 1 2) 0x00600 .force).kind ≠ .read i)
    ∧ ∀ results, some Completion.sync ≠ some (.peek results) :=
  ⟨rfl, rfl, rfl, nofun, nofun, nofun⟩

theorem witness_ReplySegments :
    2 ≤ (List.replicate 100 (0 : Byte)).length ∧ segmentCount (List.replicate 100 0) = 2
    ∧ (sending 1).exch.send = some (.segment 1) ∧ (sending 1).exch.reply = some (List.replicate 100 0)
    ∧ (sending 1).exch.segCount = some 2 := by decide

/-- The FORMAT reply to a SNAP READ's transfer, from node 0: 20H + 02H + 38H + 02H and the check byte A4H give 100H. -/
theorem witness_ReplySegments_format :
    ({ sending 0 with exch := { (sending 0).exch with send := some .formatReply } } : State).outgoing
      = some [0xC3, 0x00, 0x20, 0x02, 0x38, 0x02, 0xA4] := by decide

theorem witness_CycleEndAndHeldPort :
    idleBus.takes = false ∧ (readPins 0).takes = true
    ∧ ({ State.reset with port := .done (acc 0 false) (some 0) } : State).port ≠ .idle
    ∧ State.reset.resetBlocks.sysrstn = false ∧ State.reset.port = .idle ∧ State.reset.mport = .idle
    ∧ (granted .q .read (.reading 0xFFFFF)).mport = .reading 0xFFFFF
    ∧ (granted .c .write (.writing 0 0x1200 ⟨true, false⟩)).mport = .writing 0 0x1200 ⟨true, false⟩ := by decide

theorem witness_AccessAnsweredLocally :
    State.reset.sysrstn = true ∧ State.reset.port = .idle ∧ (readPins 0xFFFFF).takes = true ∧ State.reset.arb.waitC = false
    ∧ (heldAccess (mapped .absent false) (readPins 0xFFFFF)).cls = .region 0 .absent false
    ∧ (heldAccess (mapped .output true) (writePins 0 1)).write = true
    ∧ (heldAccess (mapped .output true) (writePins 0 1)).cls = .region 0 .output true := by decide

theorem witness_AccessForwarded :
    (heldAccess State.reset.regions (writePins 0xFFFFF 1)).cls.cls ≠ some .absent
    ∧ (heldAccess State.reset.regions (writePins 0xFFFFF 1)).cls.guarded = false
    ∧ ((granted .q .read (.reading 0)).arb.grant ≠ none ∧ (granted .q .read (.reading 0)).arb.reservation = none)
    ∧ (State.reset.arb.grant = none ∧ State.reset.arb.anyWaits = false)
    ∧ ({ Arbiter.reset with reservation := some 250, waitQ := true } : Arbiter).reservation ≠ none := by decide

/-- A controller read whose data is about to return, its cycle ended or not, with a bus that forms a new cycle or none. -/
def readReturning (ended : Bool) (bus : BusPins) : State :=
  granted .c .read (.reading 0x00430) { State.reset with port := .active (acc 0x00430 false 0 ended), bus := bus }

theorem witness_ControllerReadReturns :
    ((readReturning false (readPins 0x00430)).arb.grant = some ⟨.c, .read⟩
      ∧ (readReturning false (readPins 0x00430)).mport = .reading 0x00430
      ∧ (readReturning false (readPins 0x00430)).port = .active (acc 0x00430 false))
    ∧ (readReturning true idleBus).bus.takes = false
    ∧ ((readReturning true (readPins 0x00431)).bus.takes = true ∧ (readReturning true (readPins 0x00431)).sysrstn = true) := by
  decide

/-- A controller write about to reach memory. -/
def writeReaching (ended : Bool) (bus : BusPins) : State :=
  granted .c .write (.writing 0x00500 0x1234 Lanes.both)
    { State.reset with port := .active (acc 0x00500 true 0x1234 ended), bus := bus }

theorem witness_ControllerWriteReaches :
    (writeReaching false idleBus).mem.wf ∧ (writeReaching false idleBus).arb.grant = some ⟨.c, .write⟩
    ∧ (writeReaching false idleBus).mport = .writing 0x00500 0x1234 Lanes.both
    ∧ (writeReaching true idleBus).port = .active (acc 0x00500 true 0x1234 true)
    ∧ (writeReaching true (readPins 0)).bus.takes = true := by decide

theorem witness_ReservationExpires :
    ({ State.reset with arb := { Arbiter.reset with reservation := some 250 } } : State).arb.reservation = some 250
    ∧ ({ Arbiter.reset with reservation := some 250 } : Arbiter).anyWaits = false := by decide

theorem witness_PairReadReturns :
    ((granted .c (.captureRead 0x3000 Lanes.both) (.reading 0x00601)).arb.grant = some ⟨.c, .captureRead 0x3000 Lanes.both⟩
      ∧ (granted .c (.captureRead 0x3000 Lanes.both) (.reading 0x00601)).mport = .reading 0x00601)
    ∧ ((serving (.modify 0x8000 0x7FFF) 0x00430 .force .read (.reading 0x00430)).ops = [head (.modify 0x8000 0x7FFF) 0x00430 .force true]
      ∧ (0x8000 : Word) &&& 0x7FFF = 0) := by decide

theorem witness_FillReadReturns :
    (granted .f .read (.reading 0x00600) (fillOf .pending .pending)).arb.grant = some ⟨.f, .read⟩
    ∧ (granted .f .read (.reading 0x00600) (fillOf .pending .pending)).mport = .reading 0x00600
    ∧ (granted .f .read (.reading 0x00600)).fill = none := by decide

theorem witness_OperationsEnd :
    ((serving (.read 31) 0x00430 .peek .read (.reading 0x00430)).arb.grant = some ⟨.q, .read⟩
      ∧ (serving (.read 31) 0x00430 .peek .read (.reading 0x00430)).ops = [head (.read 31) 0x00430 .peek true])
    ∧ ((serving (.write 5) 0x00430 .poke .write (.writing 0x00430 5 Lanes.both)).mem.wf
      ∧ (serving (.write 5) 0x00430 .poke .write (.writing 0x00430 5 Lanes.both)).arb.grant = some ⟨.q, .write⟩)
    ∧ (serving (.modify 1 0) 0x00430 .force .write (.writing 0x00430 1 Lanes.both)).ops
      = [head (.modify 1 0) 0x00430 .force true] := by decide

theorem witness_SysrstnFalls :
    (writeReaching false idleBus).sysrstn = true ∧ (writeReaching false idleBus).PathOk
    ∧ (readReturning false idleBus).PathOk
    ∧ (granted .c (.captureRead 0x3000 Lanes.both) (.reading 0x00601)
        { State.reset with port := .active (acc 0x00601 true 0x3000) }).PathOk := by decide

theorem witness_PinEdges :
    State.reset.resetBlocks.sysrstn = false ∧ State.reset.resetBlocks.bus.takes = false
    ∧ ({ State.reset with bus := readPins 0 } : State).resetBlocks.bus.takes = true
    ∧ (State.reset.sysrstn = true ∧ State.reset.ctlrun = false) := by decide

theorem witness_ExpiriesTaken :
    ((supervised .timing (some 101)).state = .timing ∧ (supervised .timing (some 101)).limit.toNat * 100 < (101 : Micros).toNat)
    ∧ (100 : Micros).toNat ≤ (supervised .timing (some 100)).limit.toNat * 100
    ∧ ({ lease .tune with remaining := 0 } : Lease).cond = .running
    ∧ Lease.view.cond ≠ .running
    ∧ (awaiting.exch.state = .awaitContinue ∧ awaiting.exch.contTime = some 7)
    ∧ ((supervised .waitingFirst none).state ≠ .timing ∧ (supervised .stalled (some 101)).state ≠ .timing)
    ∧ State.reset.exch.state ≠ .awaitContinue := by decide

theorem witness_TimeBaseTicks :
    State.reset.resetBlocks.sysrstn = false
    ∧ ((at' .tune).sysrstn = true ∧ 1 ≤ (at' .tune).lease.remaining)
    ∧ (supervised .timing (some 100)).limit.toNat * 100 = 100
    ∧ (awaiting.exch.contTime = some 7 ∧ 7 < 1000000) := by decide

/-- A tick that meets a lease and a scan limit that are due. -/
theorem witness_TimeBaseTicks_due :
    let s : State := { State.reset with lease := { lease .tune with remaining := 0 }, sup := supervised .timing (some 101) }
    s.sysrstn = true ∧ exec .leaseExpiry s = .next (after .leaseExpiry s)
      ∧ (after .timeBaseTick s).lease = Lease.view ∧ (after .timeBaseTick s).sup.state = .stalled :=
  ⟨rfl, rfl, rfl, rfl⟩

theorem witness_FramesAssemble :
    (State.reset.sysrstn = true ∧ State.reset.rx.awaitMark = false ∧ State.reset.exch.lde = false
      ∧ State.reset.rx.state = .hunt ∧ (ch 0xC3).data = 0xC3 ∧ (ch 0xC3).flagged = false)
    ∧ ((ch 0xC2).data ≠ 0xC3 ∧ flaggedCh.flagged = true)
    ∧ ((holding State.reset 0 0x10 []).rx.state = .assembling ⟨[0, 0x10, 0], false, false⟩ ∧ (ch 64).data.toNat ≤ 64) := by
  decide

theorem witness_FramesDiscarded :
    ((req []).rx.state = .assembling ⟨[0x00, 0x10, 0x00], false, false⟩ ∧ (req []).listening = true)
    ∧ 64 < (ch 65).data.toNat ∧ (req []).finalByte zeroCh = some .bad
    ∧ ({ State.reset with rx := ⟨.assembling ⟨[0x00, 0x10, 0x00], false, true⟩, false⟩ } : State).finalByte zeroCh
      = some .violation := by decide

theorem witness_FramesEndTransfer :
    ((holding awaiting 0x00 0x20 []).LinkOk ∧ (holding awaiting 0x00 0x20 []).finalByte (checkCh 0x00 0x20 []) = some .ignored)
    ∧ (holding awaiting 0x03 0x10 [1]).finalByte (checkCh 0x03 0x10 [1]) = some .requestOther
    ∧ (holding awaiting 0x0F 0x50 []).finalByte (checkCh 0x0F 0x50 []) = some (.abort false)
    ∧ (holding awaiting 0x00 0x50 []).finalByte (checkCh 0x00 0x50 []) = some (.abort true)
    ∧ (holding awaiting 0x00 0x50 []).lease = Lease.view := by decide

theorem witness_BroadcastsActed :
    (holding awaiting 0x0F 0x10 [0x21]).finalByte (checkCh 0x0F 0x10 [0x21]) = some (.broadcast [0x21])
    ∧ (holding awaiting 0x0F 0x10 [4, 0, 1, 2]).finalByte (checkCh 0x0F 0x10 [4, 0, 1, 2]) = some (.broadcast [4, 0, 1, 2])
    ∧ (holding awaiting 0x0F 0x10 [4, 1, 1, 2]).finalByte (checkCh 0x0F 0x10 [4, 1, 1, 2]) = some (.broadcast [4, 1, 1, 2]) := by
  decide

theorem witness_ContinueServed :
    ((holding awaiting 0x00 0x40 []).LinkOk
      ∧ (holding awaiting 0x00 0x40 []).finalByte (checkCh 0x00 0x40 []) = some (.cont true 0)
      ∧ (holding awaiting 0x00 0x40 []).exch.lastSent = some 0 ∧ (holding awaiting 0x00 0x40 []).exch.nextIndex = some 1)
    ∧ (holding awaiting 0x00 0x41 []).finalByte (checkCh 0x00 0x41 []) = some (.cont true 1)
    ∧ (holding awaiting 0x00 0x4F []).finalByte (checkCh 0x00 0x4F []) = some (.cont true 15)
    ∧ ((holding State.reset 0x00 0x40 []).finalByte (checkCh 0x00 0x40 []) = some (.cont true 0)
      ∧ (holding State.reset 0x00 0x40 []).leaseOk = true)
    ∧ (holding awaiting 0x0F 0x40 []).finalByte (checkCh 0x0F 0x40 []) = some (.cont false 0) := by decide

theorem witness_BreakEndsExchange :
    (queued.sysrstn = true ∧ queued.rx.awaitMark = false ∧ queued.LinkOk ∧ queued.exch.state = .executing)
    ∧ (State.reset.LinkOk ∧ State.reset.exch.state = .idle)
    ∧ (queued.completion = some (.peek [none, none]) ∧ queued.queueOk = true)
    ∧ ({ queued with completion := some .sync } : State).completion = some .sync
    ∧ (∀ o ∈ [head (.read 0) 0x00430 .peek, op (.read 1) 0x00431 .peek], o.origin = .peek ∧ o.active = false) := by decide

theorem witness_FramesTransmitted :
    ((sending 0).LinkOk ∧ (sending 0).exch.lde = false ∧ (sending 0).rx.state = .hunt)
    ∧ ({ sending 0 with rx := ⟨.assembling ⟨[], false, true⟩, false⟩ } : State).LinkOk
    ∧ ((transmitting 0).LinkOk ∧ (transmitting 0).exch.send = some (.segment 0) ∧ (transmitting 0).exch.segCount = some 2)
    ∧ (transmitting 1).exch.send = some (.segment 1)
    ∧ ({ sending 0 with exch := { Exchange.reset with
          state := .sending, code := some 0x38, send := some .formatReply, lde := true, ltx := some [] } } : State).LinkOk := by
  decide


/-! ### Requests -/

/-- A command at the final byte of a REQUEST with a payload is that request. -/
abbrev Asks (payload : List Byte) (s : State := State.reset) : Prop := (req payload s).Requests (fin payload) payload

/-- A broadcast REQUEST with a payload at its final byte. -/
abbrev Broadcasts (payload : List Byte) : Prop :=
  (holding State.reset 0x0F 0x10 payload).finalByte (checkCh 0x0F 0x10 payload) = some (.broadcast payload)

theorem witness_LookupAnswers :
    (resetRegions[0]? = some ⟨true, 0, 0xFFFFF, .work, false⟩ ∧ (0xFFFFF : Addr).toNat ≤ (0xFFFFF : Addr).toNat)
    ∧ (∀ r ∈ holed .work, ¬ (r.enabled = true ∧ r.base.toNat ≤ 0x10000 ∧ 0x10000 ≤ r.limit.toNat))
    ∧ lookup (holed .work) 0x0FFFF = .region 0 .work false ∧ lookup (holed .work) 0x10000 = .unmapped := by decide

theorem witness_UnknownAndEmpty : Asks [] ∧ Asks [0x00] ∧ Asks [0x06, 1, 2] ∧ Asks [0xFF] := by decide

theorem witness_ProbeEchoes :
    (Asks [0x01] ∧ State.reset.exch.state ≠ .awaitContinue) ∧ Broadcasts [0x01, 0x55] := by decide

theorem witness_ProbeEchoes_62 : Asks (0x01 :: List.replicate 62 0xAA) := by decide +kernel

theorem witness_ProbeEchoes_63 : Asks (0x01 :: List.replicate 63 0xAA) := by decide +kernel

theorem witness_IdentifyReports :
    (Asks [0x02] ∧ Asks [0x02, 0x00] ∧ Broadcasts [0x02]) ∧ exec .lrxReturnsToMark State.reset = .next State.reset :=
  ⟨by decide, rfl⟩

theorem witness_TablesListed :
    (Asks [0x22] ∧ Asks [0x32] ∧ (req [0x32]).WatchOk ∧ Asks [0x51] ∧ (req [0x51]).RegionsOk)
    ∧ Asks [0x22, 0] ∧ Asks [0x32, 0] ∧ Asks [0x51, 0] := by decide

/-- The blank bank in a state. -/
def bankIn (st : BankState) (second : Bool := false) : Bank := { Bank.empty with state := st, second := second }

theorem bankIn_ok (st : BankState) (second : Bool) (h : st ≠ .empty) : (bankIn st second).ok = true :=
  Bank.ok_of_same Bank.ok_empty rfl rfl rfl rfl rfl h

/-- A state with two blank banks in these states. -/
def banks (x y : BankState) (secondA secondB : Bool) (s : State := State.reset) : State :=
  { s with bankA := bankIn x secondA, bankB := bankIn y secondB }

theorem banksOk_of (s : State) (ha : s.bankA.ok = true) (hb : s.bankB.ok = true)
    (h : (!(s.bankA.state.withHost && s.bankB.state.withHost)
      && ((s.bankA.state = .sending) = (s.exch.bank = some .a)) && ((s.bankB.state = .sending) = (s.exch.bank = some .b))
      && (!s.bankA.second || (s.bankB.state ≠ .empty && !s.bankB.second))
      && (!s.bankB.second || (s.bankA.state ≠ .empty && !s.bankA.second))
      && (s.bankA.state = .empty || s.bankB.state = .empty || (s.bankA.second ^^ s.bankB.second))
      && s.missed ≤ 255) = true) : s.banksOk = true := by
  unfold State.banksOk
  rw [ha, hb]
  simpa only [Bool.true_and] using h

theorem reset_banksOk : State.reset.banksOk = true := banksOk_of _ Bank.ok_empty Bank.ok_empty (by decide)

theorem witness_StatusReported :
    (Asks [0x03] (at' .tune) ∧ (req [0x03] (at' .tune)).LinkOk ∧ Asks [0x03, 0])
    ∧ (req [0x03]).leaseOk = true ∧ (req [0x03] (at' .tune)).leaseOk = true ∧ (req [0x03]).banksOk = true :=
  ⟨by decide, by decide, by decide, banksOk_of _ Bank.ok_empty Bank.ok_empty (by decide)⟩

theorem witness_LevelGranted :
    (Asks [0x04, 1, 0, 1] ∧ [(1 : Byte), 0, 1] = codeIn levels .tune ++ field 2 1)
    ∧ (Asks [0x04, 2, 2, 0x58] ∧ [(2 : Byte), 2, 0x58] = codeIn levels .service ++ field 2 600)
    ∧ (Asks [0x04, 0, 0xFF, 0xFF] ∧ [(0 : Byte), 0xFF, 0xFF] = codeIn levels .view ++ field 2 65535)
    ∧ Asks [0x04, 1, 2, 0x59] ∧ Asks [0x04, 1, 0, 0] ∧ Asks [0x04, 3, 0, 1] ∧ Asks [0x04] := by decide

theorem witness_SessionCleared :
    Asks [0x05] ∧ Asks [0x05, 0] ∧ Broadcasts [0x05] ∧ Asks [0x21] ∧ Asks [0x21, 0] := by decide

/-- A READ of a PEEK in an ABSENT word, and a READ behind it in a WORK word. -/
theorem witness_EmptyQueueJoined :
    ((State.reset.ops = [] ∧ State.reset.arb.waitQ = false)
      ∧ (lookup (mapped .absent false) 0x00430).isAbsent = true ∧ (op (.read 0) 0x00430 .peek).cls = none)
    ∧ ((op (.read 0) 0x00430 .peek).active = false ∧ (lookup State.reset.regions 0x00430).isAbsent = false)
    ∧ handOn (some (.peek [none])) (op (.read 0) 0x00430 .peek) 0 = some (.peek ([0].map some))
    ∧ handOn (some .sync) (op (.write 1) 0x00430 .poke) 0 = some .sync
    ∧ handOn none (op (.write 1) 0x00430 .poke) 0 = none := by decide

theorem witness_PeekAndSyncTaken :
    (Asks [0x10, 0, 4, 0x30, 1] ∧ [(0 : Byte), 4, 0x30, 1] = peekLayout 0x00430 1)
    ∧ (Asks [0x10, 0x0F, 0xFF, 0xE0, 32] ∧ [(0x0F : Byte), 0xFF, 0xE0, 32] = peekLayout 0xFFFE0 32
      ∧ ∀ k < 32, Named State.reset.regions (0xFFFE0 + k))
    ∧ (Asks [0x10, 0x0F, 0xFF, 0xFF, 2] ∧ [(0x0F : Byte), 0xFF, 0xFF, 2] = peekLayout 0xFFFFF 2
      ∧ ¬ Named State.reset.regions (0xFFFFF + 1))
    ∧ 32 < [op (.write 1) 0x00430 .poke].length + 32
    ∧ Asks [0x10, 0, 0, 0, 33] ∧ Asks [0x10, 0, 0, 0, 0] ∧ Asks [0x10]
    ∧ (Asks [0x12] ∧ State.reset.ops = []) ∧ (Asks [0x12] { State.reset with ops := [head (.write 1) 0x00430 .poke] })
    ∧ Asks [0x12, 0] := by decide

theorem witness_PokeTaken :
    (Asks [0x11, 0, 4, 0x30, 1, 0x12, 0x34] ∧ [(0 : Byte), 4, 0x30, 1, 0x12, 0x34] = pokeLayout 0x00430 [0x1234]
      ∧ State.reset.lease.level = .view)
    ∧ ((at' .tune).lease.level ≠ .view ∧ Named State.reset.regions 0x00430 ∧ ¬ Named (holed .work) 0x10000)
    ∧ ((at' .tune).lease.level = .tune ∧ classAt (mapped .program false) 0x00430 = some .program
      ∧ classAt (mapped .input false) 0x00430 = some .input)
    ∧ ((at' .service).lease.level = .service ∧ ({ at' .service with ctlrun := true } : State).ctlrun = true)
    ∧ (State.reset.ops.length + 24 ≤ 32 ∧ 32 < (List.replicate 9 (op (.write 1) 0x00430 .poke)).length + 24)
    ∧ Asks [0x11, 0, 4, 0x30, 0] ∧ Asks [0x11, 0x0F, 0xFF, 0xFF, 2, 0, 0, 0, 0] ∧ Asks [0x11] := by decide

/-- A FORCE of one word: bit 0 set. -/
def force1 : ForceWord := ⟨0x00012, 0x0001, 0, 0, 0, 0⟩

theorem witness_ForceTaken :
    (ForceWellFormed [force1] ∧ Asks (0x20 :: forceLayout [force1])
      ∧ State.reset.lease.level = .view ∧ (at' .tune).lease.level ≠ .view)
    ∧ classAt (holed .work) 0x10000 = none ∧ classAt (mapped .absent false) 0x00012 = some .absent
    ∧ classAt (mapped .program false) 0x00012 = some .program ∧ classAt State.reset.regions 0x00012 = some .work
    ∧ ((applyForce [] [force1]).length ≤ 32
      ∧ 32 < (applyForce ((List.range 32).map (fun k => ⟨0x00100 + BitVec.ofNat 20 k, 1, 0⟩)) [force1]).length)
    ∧ 32 < (List.replicate 32 (op (.write 1) 0x00430 .poke)).length + 1
    ∧ Asks [0x20, 0] ∧ Asks [0x20] := by decide

theorem witness_ForceTaken_format (params : List Byte) (h : params = []) :
    ∀ ws, ForceWellFormed ws → params ≠ forceLayout ws := by
  rintro ws - hp
  rw [h] at hp
  simp [forceLayout, field] at hp

theorem witness_ForceMasks :
    (({ State.reset with forces := [⟨0x00012, 0, 0x8000⟩] } : State).ForcesOk ∧ ForceWellFormed [force1])
    ∧ ForceWellFormed [⟨0x00012, 0, 0, 0xFFFF, 0, 0⟩]
    ∧ applyForce [⟨0x00012, 0, 0x8000⟩] [⟨0x00012, 0, 0, 0xFFFF, 0, 0⟩] = [] := by decide

theorem witness_WatchChanged :
    (ItemsWellFormed [.word 0x00600] ∧ Asks (0x30 :: itemsLayout [.word 0x00600]) ∧ Named State.reset.regions 0x00600)
    ∧ (ItemsWellFormed [.pair 0xFFFFF] ∧ 0x100000 ∈ (WatchItem.pair 0xFFFFF).addresses ∧ ¬ Named State.reset.regions 0x100000)
    ∧ (ItemsWellFormed [] ∧ Asks (0x30 :: itemsLayout []))
    ∧ (fillOf .pending .pending).bankA.state = .filling
    ∧ (64 < ([WatchItem.word 0] ++ List.replicate 64 (WatchItem.word 0)).length)
    ∧ Asks (0x31 :: itemsLayout [.bit 0x00012 15]) ∧ Asks [0x30] ∧ Asks [0x31, 0]
    ∧ State.reset.bankA.state ≠ .filling ∧ State.reset.bankB.state ≠ .filling := by decide

theorem witness_WatchChanged_format :
    (∀ items, ItemsWellFormed items → ([] : List Byte) ≠ itemsLayout items)
    ∧ ∀ items, items ≠ [] → ItemsWellFormed items → ([0] : List Byte) ≠ itemsLayout items := by
  constructor
  · intro items _ h
    simp [itemsLayout, field] at h
  · intro items hn hi h
    cases items with
    | nil => exact hn rfl
    | cons it rest => cases it <;> simp [itemsLayout, field, WatchItem.bytes] at h

theorem witness_ItemsExpand :
    (expandItems [.bit 0x00012 3, .grid 0x00100 2 1 3 16])[1 + (2 * 2 + 1)]? = some ⟨0x00121, 1⟩ := by decide

theorem witness_WatchArmed :
    (Asks [0x33, 1] ∧ [(1 : Byte)] = codeIn modes .oneShot) ∧ (Asks [0x33, 2] ∧ [(2 : Byte)] = codeIn modes .continuous)
    ∧ State.reset.watch.items = [] ∧ (fillOf .pending .pending).watch.items ≠ []
    ∧ (Asks [0x33, 0] ∧ ∀ m : WatchMode, m ≠ .off → [(0 : Byte)] ≠ codeIn modes m) ∧ Asks [0x33]
    ∧ Asks [0x34] ∧ Asks [0x34, 0] := by
  refine ⟨by decide, by decide, by decide, by decide, ⟨by decide, ?_⟩, by decide, by decide, by decide⟩
  intro m; cases m <;> decide

theorem banks_ok (s : State) (x y : BankState) (a b : Bool) (hx : (bankIn x a).ok = true) (hy : (bankIn y b).ok = true)
    (h : (!(x.withHost && y.withHost) && ((x = .sending) = (s.exch.bank = some .a))
      && ((y = .sending) = (s.exch.bank = some .b)) && (!a || (y ≠ .empty && !b)) && (!b || (x ≠ .empty && !a))
      && (x = .empty || y = .empty || (a ^^ b)) && s.missed ≤ 255) = true) : (banks x y a b s).banksOk = true :=
  banksOk_of _ hx hy h

theorem witness_SnapshotsRead :
    (Asks [0x38, 0] (banks .ready .ready false true) ∧ Asks [0x38, 1] (banks .sent .ready false true)
      ∧ Asks [0x38, 2] ∧ Asks [0x38] ∧ Asks [0x39] ∧ Asks [0x39, 0])
    ∧ [(0 : Byte)] = field 1 false.toNat ∧ [(1 : Byte)] = field 1 true.toNat
    ∧ (req [0x38, 0] (banks .ready .ready false true)).banksOk = true
    ∧ (req [0x38, 1] (banks .sent .ready false true)).banksOk = true ∧ (req [0x39]).banksOk = true :=
  ⟨by decide, by decide, by decide, banksOk_of _ (bankIn_ok _ _ (by decide)) (bankIn_ok _ _ (by decide)) (by decide),
    banksOk_of _ (bankIn_ok _ _ (by decide)) (bankIn_ok _ _ (by decide)) (by decide),
    banksOk_of _ Bank.ok_empty Bank.ok_empty (by decide)⟩

/-- The states the taking leaves of two READY banks, a SENT one and none. -/
theorem witness_SnapshotsRead_taken :
    (((req [0x38, 0] (banks .ready .ready false true)).takeRequest 0x38).bankA.state = .ready
      ∧ ((req [0x38, 0] (banks .ready .ready false true)).takeRequest 0x38).bankA.second = false)
    ∧ ((req [0x38, 1] (banks .sent .ready false true)).takeRequest 0x38).bankA.state = .sent
    ∧ ((req [0x39]).takeRequest 0x39).bankA.state ≠ .sent ∧ ((req [0x39]).takeRequest 0x39).bankB.state ≠ .ready := by decide

/-- A bank of one BIT item and one PAIR item. -/
def layoutBank : Bank :=
  { bankIn .sent with
    header := { Header.blank with elementCount := 3, itemCount := 2 }, layout := [⟨.bit, 1, some 15⟩, ⟨.pair, 2, none⟩] }

theorem witness_ReadoutLayout :
    layoutBank.words.length = 256 ∧ layoutBank.flags.length = 256 ∧ layoutBank.header.elementCount ≤ 256
    ∧ (layoutBank.layout.map (fun l => l.count)).sum = layoutBank.header.elementCount
    ∧ ∀ l ∈ layoutBank.layout, l.bit ≠ none → l.count = 1 :=
  ⟨List.length_replicate, List.length_replicate, by decide, by decide, by decide⟩

theorem witness_ScanConfigured :
    (Asks [0x40, 1, 0, 5, 0, 0, 10, 1] ∧ (at' .tune).lease.level ≠ .service ∧ (at' .service).lease.level = .service)
    ∧ (Asks [0x40, 0, 9, 9, 9, 0, 0, 0] ∧ Asks [0x40, 2, 0, 0, 0, 0, 0, 0] ∧ Asks [0x40]) := by decide

theorem witness_ScanConfigured_layouts :
    ScanLayout (some 0x00500) 10 .release [1, 0, 5, 0, 0, 10, 1] ∧ ScanLayout none 0 .none [0, 9, 9, 9, 0, 0, 0]
    ∧ ∀ m limit x, ¬ ScanLayout m limit x [] := by
  refine ⟨by unfold ScanLayout; decide, ⟨9, 9, 9, by decide⟩, ?_⟩
  rintro (_ | a) limit x h
  · obtain ⟨b2, b1, b0, h⟩ := h
    simp [field] at h
  · simp [ScanLayout, field] at h

theorem witness_ScanConfigured_marker :
    MarkerAt State.reset.regions 0x00500 ∧ MarkerAt (mapped .hold false) 0xFFFFF ∧ ¬ MarkerAt (mapped .input false) 0x00500
    ∧ ¬ MarkerAt (mapped .work true) 0x00500 := by
  refine ⟨⟨0, .work, by decide, .inl rfl⟩, ⟨0, .hold, by decide, .inr rfl⟩, ?_, ?_⟩
  · rintro ⟨n, k, h, hk⟩
    have e : lookup (mapped .input false) 0x00500 = .region 0 .input false := by decide
    rw [e] at h
    cases h
    rcases hk with hk | hk <;> cases hk
  · rintro ⟨n, k, h, hk⟩
    have e : lookup (mapped .work true) 0x00500 = .region 0 .work true := by decide
    rw [e] at h
    cases h

theorem witness_StatsAndLogRead :
    Asks [0x41, 0] ∧ Asks [0x41, 1] ∧ [(1 : Byte)] = field 1 true.toNat ∧ Asks [0x41, 2] ∧ Asks [0x41]
    ∧ (∀ clear : Bool, [(2 : Byte)] ≠ field 1 clear.toNat) ∧ Asks [0x58] ∧ Asks [0x58, 0] := by decide

/-- A record of region 7 at the ends of its field ranges. -/
def record7 : Region := ⟨true, 0x00000, 0xFFFFF, .program, true⟩

theorem witness_RegionSetTaken :
    (Asks [0x50, 7, 0xFF, 0, 0, 0, 0x0F, 0xFF, 0xFF, 4] ∧ RegionWellFormed 7 record7
      ∧ (at' .tune).lease.level ≠ .service ∧ (at' .service).lease.level = .service)
    ∧ (State.reset.bankA.state ≠ .filling ∧ State.reset.bankB.state ≠ .filling ∧ State.reset.forces = []
      ∧ State.reset.watch.elements = [] ∧ State.reset.sup.marker = none)
    ∧ (fillOf .pending .pending).bankA.state = .filling
    ∧ lookup ((holed .work).set 0 ⟨false, 0, 0, .work, false⟩) 0x00600 = .unmapped
    ∧ Asks [0x50, 8, 1, 0, 0, 0, 0, 0, 0, 0] ∧ Asks [0x50] := by decide

theorem witness_RegionSetTaken_layout :
    RegionLayout 7 record7 [7, 0xFF, 0, 0, 0, 0x0F, 0xFF, 0xFF, 4]
    ∧ ∀ n r, RegionWellFormed n r → ¬ RegionLayout n r [] := by
  refine ⟨⟨0xFF, by decide⟩, ?_⟩
  rintro n r - ⟨flags, -, -, h⟩
  simp [field] at h

theorem witness_AlertsWritten :
    Asks [0x60, 0xFF] ∧ Asks [0x60] ∧ Asks [0x60, 1, 2] ∧ Asks [0x61, 0x1F] ∧ Asks [0x61]
    ∧ Broadcasts [0x60, 0xFF] ∧ Broadcasts [0x61, 0x00]
    ∧ ({ State.reset with latched := ⟨false, true, false, false, false⟩ } : State).alertn = some false := by decide

/-! ### What every step keeps -/

theorem reset_coherent : State.reset.Coherent where
  mem := by decide
  regions := by decide
  guardLog := by decide
  forces := by decide
  placed := by decide
  marker := by intro a h; cases h
  lease := by decide
  queue := by decide
  watch := by decide
  supervisor := by decide
  link := by decide
  fill := by decide
  banks := reset_banksOk
  path := by decide
  low := by intro h; cases h

/-- A fill whose last read is at memory: F holds the grant, one element is captured and one is PENDING. -/
def midFill : State :=
  granted .f .read (.reading 0x00601) (fillOf .captured .pending)

theorem midFill_coherent : midFill.Coherent where
  mem := by decide
  regions := by decide
  guardLog := by decide
  forces := by decide
  placed := by decide
  marker := by intro a h; cases h
  lease := by decide
  queue := by decide
  watch := by decide
  supervisor := by decide
  link := by decide
  fill := by decide
  banks := banksOk_of _
    ((Bank.ok_iff _).2 ⟨List.length_replicate, List.length_replicate, rfl, fun h => by cases h⟩) Bank.ok_empty (by decide)
  path := by decide
  low := by intro h; cases h

theorem witness_SnapshotCoherent :
    midFill.Coherent ∧ midFill.fill = some ⟨.a, [], [.captured, .pending]⟩
    ∧ step { midFill with pending := [.fillReadReturn] } = .next (after .fillReadReturn midFill) :=
  ⟨midFill_coherent, rfl, rfl⟩

theorem witness_Kept : step State.reset = .next State.reset := rfl

theorem witness_MemoryWrittenByGrants :
    ({ writeReaching false idleBus with pending := [.controllerWriteReachesMemory] } : State).mem.wf
    ∧ ({ writeReaching false idleBus with pending := [.controllerWriteReachesMemory] } : State).PathOk
    ∧ (after .controllerWriteReachesMemory (writeReaching false idleBus)).mem ≠ (writeReaching false idleBus).mem := by
  decide

end Sys2Proof.Tests
end

section
/-! Proofs of the access path (file 01). First: the overlay, the substitution and the held access bit by bit. -/

namespace Sys2Proof.Machine

/-! ## Words bit by bit -/

/-- The mask of the lanes has a bit exactly where the lanes enable it. -/
theorem Lanes.getLsbD_mask (l : Lanes) {i : Nat} (hi : i < 16) : l.mask.getLsbD i = l.enables i := by
  obtain ⟨up, lo⟩ := l
  cases up <;> cases lo <;> revert i <;> decide

/-- The read overlay holds the forced bits at their values and leaves the others (R42). -/
theorem overlaid_overlay (forces : List ForceEntry) (cls : Classification) (a : Addr) (w : Word) :
    Overlaid forces cls a w (overlay forces cls a w) := by
  intro i hi
  unfold overlay overlayBy forcedAt
  split
  · cases entryFor forces a with
    | none => rfl
    | some e =>
      simp only [BitVec.getLsbD_or, BitVec.getLsbD_and, BitVec.getLsbD_not, hi, decide_true]
      cases e.set.getLsbD i <;> cases e.clr.getLsbD i <;> simp
  · rfl

/-- Write substitution puts the forced bits of the enabled lanes at their values and leaves the others (R45). -/
theorem substituted_substitute (forces : List ForceEntry) (cls : Classification) (a : Addr) (w : Word) (lanes : Lanes) :
    Substituted forces cls a lanes w (substitute forces cls a w lanes) := by
  intro i hi
  unfold substitute substituteBy forcedAt
  cases cls.pinned with
  | false => simp
  | true =>
    cases entryFor forces a with
    | none => simp
    | some e =>
      simp only [BitVec.getLsbD_or, BitVec.getLsbD_and, BitVec.getLsbD_not, hi, decide_true, if_true,
        Lanes.getLsbD_mask lanes hi, Bool.true_and]
      cases lanes.enables i <;> cases e.set.getLsbD i <;> cases e.clr.getLsbD i <;> simp

/-- The word of a MODIFY, bit by bit, when its masks share no bit (R46). -/
theorem getLsbD_modifyWord (w st cl : Word) (h : st &&& cl = 0) {i : Nat} (hi : i < 16) :
    (modifyWord w st cl).getLsbD i = if st.getLsbD i then true else if cl.getLsbD i then false else w.getLsbD i := by
  have hb : (st.getLsbD i && cl.getLsbD i) = false := by rw [← BitVec.getLsbD_and, h]; exact BitVec.getLsbD_zero
  cases hs : st.getLsbD i <;> cases hc : cl.getLsbD i <;> simp_all [modifyWord]

/-! ## The held access -/

/-- The access the port takes is the one the pins form, a disabled lane and a read holding no data (R1, R4). -/
theorem accessOf_eq_heldAccess (regions : List Region) (p : BusPins) : accessOf regions p = heldAccess regions p := by
  have hd : (accessOf regions p).data = (heldAccess regions p).data := by
    unfold accessOf heldAccess
    dsimp only
    cases p.wen with
    | true => simp
    | false =>
      apply BitVec.eq_of_getLsbD_eq
      intro i hi
      simp only [Bool.not_false, Bool.true_and, Bool.false_eq_true, if_false]
      rw [BitVec.getLsbD_append, BitVec.getLsbD_and, Lanes.getLsbD_mask _ hi, Lanes.enables]
      by_cases h8 : i < 8
      · cases p.lbn <;> simp [h8]
      · have h : 8 + (i - 8) = i := by omega
        cases p.ubn <;> simp [h8, h]
        omega
  exact Access.mk.injEq .. |>.mpr ⟨rfl, rfl, rfl, hd, rfl, rfl⟩

/-- The data an access takes from the pins lies in its lanes (log entry 15). -/
theorem accessOf_data_masked (regions : List Region) (p : BusPins) :
    (accessOf regions p).data &&& ~~~(accessOf regions p).lanes.mask = 0 := by
  unfold accessOf
  dsimp only
  split
  · exact BitVec.zero_and
  · rw [BitVec.and_assoc, BitVec.and_not_self]
    exact BitVec.and_zero

/-- An access is forwarded unless its word is ABSENT or it is a write of a guarded one (R6, R8). -/
theorem Access.forwarded_iff (acc : Access) :
    acc.forwarded = true ↔ acc.cls.cls ≠ some .absent ∧ (acc.write = true → acc.cls.guarded = false) := by
  simp only [Access.forwarded, Classification.isAbsent, Bool.and_eq_true, Bool.not_eq_true', decide_eq_false_iff_not,
    Bool.and_eq_false_imp, ne_eq]

/-! ## PENDING elements -/

/-- Element n of a fill is PENDING at an address. -/
abbrev Owed (es : List Element) (ss : List ElemState) (n : Nat) (a : Addr) : Prop :=
  ss[n]? = some .pending ∧ ∃ e, es[n]? = some e ∧ e.addr = a

theorem owed_zero (e : Element) (es : List Element) (st : ElemState) (ss : List ElemState) (a : Addr) :
    Owed (e :: es) (st :: ss) 0 a ↔ st = .pending ∧ e.addr = a := by
  simp [Owed]

theorem owed_succ (e : Element) (es : List Element) (st : ElemState) (ss : List ElemState) (n : Nat) (a : Addr) :
    Owed (e :: es) (st :: ss) (n + 1) a ↔ Owed es ss n a := by
  simp [Owed]

/-- The capture check finds a PENDING element exactly where one is owed (R11). -/
theorem pendingIn_iff (a : Addr) (es : List Element) (ss : List ElemState) :
    pendingIn a es ss = true ↔ ∃ n, Owed es ss n a := by
  induction es generalizing ss with
  | nil => simp [pendingIn]
  | cons e es ih =>
    cases ss with
    | nil => simp [pendingIn]
    | cons st ss =>
      rw [pendingIn, Bool.or_eq_true, ih]
      constructor
      · rintro (h | ⟨n, h⟩)
        · exact ⟨0, (owed_zero ..).2 (by simpa using h)⟩
        · exact ⟨n + 1, (owed_succ ..).2 h⟩
      · rintro ⟨_ | n, h⟩
        · exact .inl (by simpa using (owed_zero ..).1 h)
        · exact .inr ⟨n, (owed_succ ..).1 h⟩

/-- The lowest-numbered PENDING element is owed, and none before it (R114). -/
theorem lowestPendingIn_iff (a : Addr) (es : List Element) (ss : List ElemState) :
    lowestPendingIn es ss = some a ↔ ∃ n, Owed es ss n a ∧ ∀ m < n, ∀ b, ¬ Owed es ss m b := by
  induction es generalizing ss with
  | nil => simp [lowestPendingIn]
  | cons e es ih =>
    cases ss with
    | nil => simp [lowestPendingIn]
    | cons st ss =>
      rw [lowestPendingIn]
      split
      · rename_i hst
        constructor
        · intro h
          exact ⟨0, (owed_zero ..).2 ⟨hst, Option.some.inj h⟩, fun m hm => absurd hm (Nat.not_lt_zero m)⟩
        · rintro ⟨_ | n, h, hmin⟩
          · rw [((owed_zero ..).1 h).2]
          · exact absurd ((owed_zero ..).2 ⟨hst, rfl⟩) (hmin 0 n.succ_pos e.addr)
      · rename_i hst
        rw [ih]
        constructor
        · rintro ⟨n, h, hmin⟩
          refine ⟨n + 1, (owed_succ ..).2 h, ?_⟩
          rintro (_ | m) hm b hb
          · exact hst ((owed_zero ..).1 hb).1
          · exact hmin m (Nat.lt_of_succ_lt_succ hm) b ((owed_succ ..).1 hb)
        · rintro ⟨_ | n, h, hmin⟩
          · exact absurd ((owed_zero ..).1 h).1 hst
          · exact ⟨n, (owed_succ ..).1 h, fun m hm b hb => hmin (m + 1) (Nat.succ_lt_succ hm) b ((owed_succ ..).2 hb)⟩

theorem State.pendingAt_iff (s : State) (a : Addr) :
    s.pendingAt a = true ↔ ∃ f n, s.fill = some f ∧ Owed s.watch.elements f.states n a := by
  unfold State.pendingAt
  cases s.fill with
  | none => simp
  | some f => simp [pendingIn_iff]

theorem State.lowestPending_iff (s : State) (a : Addr) :
    s.lowestPending = some a ↔ ∃ f n, s.fill = some f ∧ Owed s.watch.elements f.states n a
      ∧ ∀ m < n, ∀ b, ¬ Owed s.watch.elements f.states m b := by
  unfold State.lowestPending
  cases s.fill with
  | none => simp
  | some f => simp [lowestPendingIn_iff]

/-! ## What a grant decision begins (R16) -/

/-- A decision grants C: C waits, and the count leaves it its turn or no engine waits (R16). -/
abbrev Arbiter.goesToC (b : Arbiter) : Prop :=
  b.waitC = true ∧ (b.count < 4 ∨ ¬ (b.waitF = true ∨ b.waitQ = true))

/-- A decision grants F: C is not granted and F waits, alone or after Q had its turn (R16). -/
abbrev Arbiter.goesToF (b : Arbiter) : Prop :=
  ¬ b.goesToC ∧ b.waitF = true ∧ (b.waitQ = true → b.lastEngine = .q)

/-- A decision grants Q: C is not granted and Q waits, alone or after F had its turn (R16). -/
abbrev Arbiter.goesToQ (b : Arbiter) : Prop :=
  ¬ b.goesToC ∧ b.waitQ = true ∧ (b.waitF = true → b.lastEngine = .f)

theorem Arbiter.goesToC_iff (b : Arbiter) :
    (b.waitC && (decide (b.count < Config.grantRun) || !b.engineWaits)) = true ↔ b.goesToC := by
  simp [Arbiter.goesToC, Arbiter.engineWaits]

theorem State.decideGrant_of_goesToC {s : State} (h : s.arb.goesToC) : s.decideGrant = s.grantController := by
  rw [State.decideGrant, if_pos ((Arbiter.goesToC_iff _).2 h)]

theorem State.decideGrant_of_goesToF {s : State} (h : s.arb.goesToF) : s.decideGrant = s.grantEngine .f := by
  obtain ⟨hc, hf, hq⟩ := h
  have hn : s.arb.nextEngine = .f := by
    unfold Arbiter.nextEngine
    cases hw : s.arb.waitQ with
    | false => simp [hf]
    | true => simp [hf, hq hw]
  rw [State.decideGrant, if_neg (fun e => hc ((Arbiter.goesToC_iff _).1 e)), if_pos (by simp [Arbiter.engineWaits, hf]), hn]

theorem State.decideGrant_of_goesToQ {s : State} (h : s.arb.goesToQ) : s.decideGrant = s.grantEngine .q := by
  obtain ⟨hc, hq, hf⟩ := h
  have hn : s.arb.nextEngine = .q := by
    unfold Arbiter.nextEngine
    cases hw : s.arb.waitF with
    | false => simp
    | true => simp [hq, hf hw]
  rw [State.decideGrant, if_neg (fun e => hc ((Arbiter.goesToC_iff _).1 e)), if_pos (by simp [Arbiter.engineWaits, hq]), hn]

/-- With no claimant waiting a decision grants nothing (R15, R16). -/
theorem State.decideGrant_of_none_waits {s : State} (h : s.arb.anyWaits = false) : s.decideGrant = s := by
  obtain ⟨hc, hf, hq⟩ : s.arb.waitC = false ∧ s.arb.waitF = false ∧ s.arb.waitQ = false := by
    simpa [Arbiter.anyWaits, Arbiter.engineWaits] using h
  simp [State.decideGrant, Arbiter.engineWaits, hc, hf, hq]

/-- Where some claimant waits a decision grants one of the three. -/
theorem Arbiter.goesTo_cases (b : Arbiter) :
    b.goesToC ∨ b.goesToF ∨ b.goesToQ ∨ b.anyWaits = false := by
  by_cases hc : b.goesToC
  · exact .inl hc
  · by_cases hf : b.waitF = true
    · by_cases hq : b.waitQ = true
      · cases he : b.lastEngine with
        | f => exact .inr (.inr (.inl ⟨hc, hq, fun _ => he⟩))
        | q => exact .inr (.inl ⟨hc, hf, fun _ => he⟩)
      · exact .inr (.inl ⟨hc, hf, fun h => absurd h hq⟩)
    · by_cases hq : b.waitQ = true
      · exact .inr (.inr (.inl ⟨hc, hq, fun h => absurd h hf⟩))
      · have hw : b.waitC ≠ true := fun h => hc ⟨h, .inr (not_or.2 ⟨hf, hq⟩)⟩
        exact .inr (.inr (.inr (by simp [Arbiter.anyWaits, Arbiter.engineWaits, hw, hf, hq])))

/-- A settled write begins with a capture read where an element is PENDING at its address (R11). -/
theorem State.grantWrite_of_pending {s : State} {a : Addr} (h : s.pendingAt a = true) (holder : Claimant) (d : Word)
    (lanes : Lanes) : s.grantWrite holder a d lanes =
      { s with arb := { s.arb with grant := some ⟨holder, .captureRead d lanes⟩ }, mport := .reading a } := by
  rw [State.grantWrite, if_pos h]

/-- A settled write begins at once where no element is PENDING at its address (R10, R78). -/
theorem State.grantWrite_of_not_pending {s : State} {a : Addr} (h : s.pendingAt a = false) (holder : Claimant) (d : Word)
    (lanes : Lanes) : s.grantWrite holder a d lanes =
      { s with arb := { s.arb with grant := some ⟨holder, .write⟩ }, mport := .writing a d lanes } := by
  rw [State.grantWrite, if_neg (by simp [h])]

/-- The arbiter once C is granted, but for the stage of the grant (R16). -/
def Arbiter.servingC (b : Arbiter) : Arbiter :=
  { b with waitC := false, count := if b.waitF || b.waitQ then b.count + 1 else 0 }

theorem State.grantController_eq {s : State} {acc : Access} (h : s.port = .active acc) :
    s.grantController =
      if acc.write then
        { s with arb := s.arb.servingC }.grantWrite .c acc.addr
          (substitute s.forces acc.cls acc.addr acc.data acc.lanes) acc.lanes
      else { s with arb := s.arb.servingC }.grantRead .c acc.addr := by
  unfold State.grantController State.grantC
  simp only [h]
  rfl

theorem State.grantEngine_f {s : State} {a : Addr} (h : s.lowestPending = some a) :
    s.grantEngine .f =
      { s with arb := { s.arb with waitF := false, count := 0, lastEngine := .f } }.grantRead .f a := by
  have h' : ({ s with arb := { s.arb with waitF := false, count := 0, lastEngine := .f } } : State).lowestPending = some a := h
  simp only [State.grantEngine, State.grantF, h']

/-- Q is granted for a WRITE: the head is ACTIVE and its write, settled by substitution, begins (R76, R78). -/
theorem State.grantEngine_q_write {s : State} {o : Operation} {rest : List Operation} {d : Word} (h : s.ops = o :: rest)
    (hk : o.kind = .write d) :
    s.grantEngine .q =
      { s with ops := { o with active := true } :: rest,
               arb := { s.arb with waitQ := false, count := 0, lastEngine := .q } }.grantWrite .q o.addr
        (substitute s.forces o.held o.addr d Lanes.both) Lanes.both := by
  simp only [State.grantEngine, State.grantQ, h, hk]

/-- Q is granted for a READ or a MODIFY: the head is ACTIVE and its read begins (R76, R77, R79). -/
theorem State.grantEngine_q_read {s : State} {o : Operation} {rest : List Operation} (h : s.ops = o :: rest)
    (hk : ∀ d, o.kind ≠ .write d) :
    s.grantEngine .q =
      { s with ops := { o with active := true } :: rest,
               arb := { s.arb with waitQ := false, count := 0, lastEngine := .q } }.grantRead .q o.addr := by
  simp only [State.grantEngine, State.grantQ, h]
  split
  · exact absurd ‹o.kind = _› (hk _)
  · rfl
  · rfl

/-- Settles O5: the three grants by their equations, their substitution bit by bit, and the PENDING elements by number. -/
theorem grantDecision : Obligations.GrantDecision := by
  intro s
  refine ⟨?_, ?_, ?_, ?_, s.pendingAt_iff, s.lowestPending_iff⟩
  · rintro acc hc hp b rfl
    have hd : s.decideGrant = _ := (State.decideGrant_of_goesToC hc).trans (State.grantController_eq hp)
    refine ⟨fun hw => ?_, fun hw => ⟨_, substituted_substitute _ _ _ _ _, ?_⟩⟩
    · rw [hd, if_neg (by simp [hw])]; rfl
    · rw [hd, if_pos hw]; rfl
  · intro a hf hl
    exact (State.decideGrant_of_goesToF hf).trans (State.grantEngine_f hl)
  · rintro o rest hq ho b rfl u rfl
    have hd : s.decideGrant = s.grantEngine .q := State.decideGrant_of_goesToQ hq
    exact ⟨fun w hk => ⟨_, substituted_substitute _ _ _ _ _, hd.trans (State.grantEngine_q_write ho hk)⟩,
      fun hk => hd.trans (State.grantEngine_q_read ho hk)⟩
  · intro he hc
    refine State.decideGrant_of_none_waits ?_
    simpa [Arbiter.anyWaits, Arbiter.engineWaits, hc] using he

end Sys2Proof.Machine
end

section
/-! The commands of the access path: the take, the completions and the reset of file 01, each by the equations of the
operations it calls. -/

namespace Sys2Proof.Machine

/-! ## A grant decision and the controller's side -/

theorem State.grantWrite_setSide (s : State) (p : BusPins) (x : PortState) (holder : Claimant) (a : Addr) (d : Word)
    (lanes : Lanes) : ({ s with bus := p, port := x } : State).grantWrite holder a d lanes =
      { s.grantWrite holder a d lanes with bus := p, port := x } := by
  cases h : s.pendingAt a with
  | true => rw [State.grantWrite_of_pending h, State.grantWrite_of_pending (s := { s with bus := p, port := x }) h]
  | false => rw [State.grantWrite_of_not_pending h, State.grantWrite_of_not_pending (s := { s with bus := p, port := x }) h]

theorem State.grantEngine_f_of_none {s : State} (h : s.lowestPending = none) :
    s.grantEngine .f = { s with arb := { s.arb with waitF := false, count := 0, lastEngine := .f } } := by
  have h' : ({ s with arb := { s.arb with waitF := false, count := 0, lastEngine := .f } } : State).lowestPending = none := h
  simp only [State.grantEngine, State.grantF, h']

theorem State.grantEngine_q_of_nil {s : State} (h : s.ops = []) :
    s.grantEngine .q = { s with arb := { s.arb with waitQ := false, count := 0, lastEngine := .q } } := by
  simp only [State.grantEngine, State.grantQ, h]

theorem State.grantEngine_setSide (s : State) (p : BusPins) (x : PortState) (e : Engine) :
    ({ s with bus := p, port := x } : State).grantEngine e = { s.grantEngine e with bus := p, port := x } := by
  cases e with
  | f =>
    cases h : s.lowestPending with
    | none => rw [State.grantEngine_f_of_none h, State.grantEngine_f_of_none (s := { s with bus := p, port := x }) h]
    | some a => rw [State.grantEngine_f h, State.grantEngine_f (s := { s with bus := p, port := x }) h]; rfl
  | q =>
    obtain ⟨ops, h⟩ : ∃ ops, s.ops = ops := ⟨_, rfl⟩
    cases ops with
    | nil => rw [State.grantEngine_q_of_nil h, State.grantEngine_q_of_nil (s := { s with bus := p, port := x }) h]
    | cons o rest =>
      by_cases hk : ∃ d, o.kind = .write d
      · obtain ⟨d, hk⟩ := hk
        rw [State.grantEngine_q_write h hk, State.grantEngine_q_write (s := { s with bus := p, port := x }) h hk]
        exact State.grantWrite_setSide { s with
          ops := { o with active := true } :: rest, arb := { s.arb with waitQ := false, count := 0, lastEngine := .q } } ..
      · have hk : ∀ d, o.kind ≠ .write d := fun d e => hk ⟨d, e⟩
        rw [State.grantEngine_q_read h hk, State.grantEngine_q_read (s := { s with bus := p, port := x }) h hk]
        rfl

/-- Where C does not wait, a grant decision does not see the controller's side: its pins and its port. -/
theorem State.decideGrant_setSide {s : State} (hw : s.arb.waitC = false) (p : BusPins) (x : PortState) :
    ({ s with bus := p, port := x } : State).decideGrant = { s.decideGrant with bus := p, port := x } := by
  unfold State.decideGrant
  rw [State.grantEngine_setSide]
  simp only [hw, Bool.false_and, Bool.false_eq_true, if_false]
  split <;> rfl

/-! ## The take (R1, R17) -/

theorem State.moveBus_of_takes {s : State} {p : BusPins} (h : p.takes = true) :
    s.moveBus p = { s with bus := p }.tryTake := by
  rw [State.moveBus, if_pos h]

theorem State.moveBus_of_not_takes {s : State} {p : BusPins} (h : p.takes = false) :
    s.moveBus p = { s with bus := p, port := s.port.cycleEnds } := by
  rw [State.moveBus, if_neg (by simp [h])]

theorem State.tryTake_of_takes {s : State} (hs : s.sysrstn = true) (hb : s.bus.takes = true) (hp : s.port = .idle) :
    s.tryTake = s.takeAccess := by
  simp [State.tryTake, hs, hb, hp]

theorem State.tryTake_of_not {s : State} (h : s.sysrstn = false ∨ s.bus.takes = false ∨ s.port ≠ .idle) :
    s.tryTake = s := by
  rcases h with h | h | h <;> simp [State.tryTake, h]

/-- At a reserved port a take ends the reservation and decides (R17). -/
theorem State.takeAtArbiter_of_reserved {s : State} (claims : Bool) (h : s.arb.reservation ≠ none) :
    s.takeAtArbiter claims =
      { s with arb := { s.arb with waitC := s.arb.waitC || claims, reservation := none } }.decideGrant := by
  rw [State.takeAtArbiter, if_pos (Option.isSome_iff_ne_none.2 h)]

/-- A take that claims nothing leaves an unreserved arbiter as it is. -/
theorem State.takeAtArbiter_false_of_unreserved {s : State} (h : s.arb.reservation = none) :
    s.takeAtArbiter false = s := by
  have harb : ({ s.arb with waitC := s.arb.waitC || false, reservation := none } : Arbiter) = s.arb := by
    ext <;> simp [h]
  rw [State.takeAtArbiter, harb]
  simp [h]

/-- At an unreserved port that is held or has claimants waiting, a claim waits (R15). -/
theorem State.takeAtArbiter_of_held {s : State} (hg : s.arb.grant ≠ none) (hr : s.arb.reservation = none) :
    s.takeAtArbiter true = { s with arb := { s.arb with waitC := true, reservation := none } } := by
  simp [State.takeAtArbiter, State.claimArrives, Arbiter.free, hr, hg]

/-- At a free port where no claimant waits, a claim is decided at once (R15). -/
theorem State.takeAtArbiter_of_free {s : State} (hg : s.arb.grant = none) (hr : s.arb.reservation = none)
    (hw : s.arb.anyWaits = false) :
    s.takeAtArbiter true = { s with arb := { s.arb with waitC := true, reservation := none } }.decideGrant := by
  simp [State.takeAtArbiter, State.claimArrives, Arbiter.free, hr, hg, hw]

theorem State.takeAccess_of_forwarded {s : State} (h : (heldAccess s.regions s.bus).forwarded = true) :
    s.takeAccess = { s with port := .active (heldAccess s.regions s.bus) }.takeAtArbiter true := by
  rw [State.takeAccess, accessOf_eq_heldAccess, if_pos h]

/-- An access that is not forwarded: a read answers 0000H, a write is discarded, and a guarded one is blocked (R7 to R9). -/
theorem State.takeAccess_of_local {s : State} (h : (heldAccess s.regions s.bus).forwarded = false) :
    s.takeAccess =
      let acc := heldAccess s.regions s.bus
      let t := s.takeAtArbiter false
      if acc.write then { (if acc.cls.blocks then t.block acc else t) with port := .done acc none }
      else { t with port := .done acc (some 0) } := by
  rw [State.takeAccess, accessOf_eq_heldAccess, if_neg (by simp [h])]

/-- Settles O11: the movement of the bus where it takes nothing, and the pins by the states of the two ports. -/
theorem cycleEndAndHeldPort : Obligations.CycleEndAndHeldPort := by
  intro s p
  refine ⟨fun h => ?_, fun h hp => ?_, ?_, fun acc word h => ?_, fun h => ?_, fun h => ?_, fun a h => ?_,
    fun a d lanes h => ?_⟩
  · show Host.Outcome.next (s.moveBus p) = _
    rw [State.moveBus_of_not_takes h]
    cases s.port <;> rfl
  · show Host.Outcome.next (s.moveBus p) = _
    rw [State.moveBus_of_takes h, State.tryTake_of_not]
    exact hp.symm.imp id .inr
  · unfold State.waitn
    cases hs : s.sysrstn <;> cases hp : s.port <;> simp
  · unfold State.dUpper State.dLower
    rw [h]
    cases word <;> simp
  · unfold State.dUpper State.dLower
    cases hp : s.port with
    | idle => exact ⟨rfl, rfl⟩
    | active acc => exact ⟨rfl, rfl⟩
    | done acc word => exact absurd hp (h acc word)
  · simp [State.memPins_idle h]
  · simp [State.memPins_reading h]
  · rw [State.memPins_writing h]
    exact ⟨rfl, rfl, rfl, rfl, rfl, rfl, d, rfl, fun _ => rfl, fun _ => rfl⟩

/-- Settles O13: the take of a forwarded access, at a held port and at one that is free or reserved. -/
theorem accessForwarded : Obligations.AccessForwarded := by
  intro s p hs hp ht acc habs hguard u hu
  have hf : (heldAccess s.regions p).forwarded = true := (Access.forwarded_iff _).2 ⟨habs, hguard⟩
  have hx : exec (.accessTake p) s = .next (({ s with bus := p, port := .active acc } : State).takeAtArbiter true) := by
    show Host.Outcome.next (s.moveBus p) = _
    rw [State.moveBus_of_takes ht, State.tryTake_of_takes (s := { s with bus := p }) hs ht hp,
      State.takeAccess_of_forwarded (s := { s with bus := p }) hf]
  rw [hx, hu]
  let v : State := { s with bus := p, port := .active acc }
  refine ⟨fun hg hr => congrArg _ (State.takeAtArbiter_of_held (s := v) hg hr), fun hg hr => congrArg _ ?_⟩
  by_cases hres : s.arb.reservation = none
  · exact State.takeAtArbiter_of_free (s := v) hg hres (hr.resolve_left fun h => h hres)
  · rw [State.takeAtArbiter_of_reserved (s := v) true hres, Bool.or_true]

end Sys2Proof.Machine
end

section
/-! The accesses answered at the port, the ends of controller accesses, the pairs, and the fall of SYSRSTN. -/

namespace Sys2Proof.Machine

/-! ## The accesses answered at the port (R7, R8, R9) -/

/-- The class of an ABSENT word, and of a guarded one of another class (R8, R29). -/
theorem Classification.blocks_region (n : Nat) (k : RegionClass) (g : Bool) :
    (Classification.region n k g).blocks = (!decide (k = .absent) && g) := by
  cases k <;> rfl

theorem Classification.isAbsent_region (n : Nat) (k : RegionClass) (g : Bool) :
    (Classification.region n k g).isAbsent = decide (k = .absent) := by
  cases k <;> rfl

/-- A decision leaves what a block writes down and what it writes to (R29, R30). -/
theorem State.block_of_alike {s t : State} {acc : Access} (hg : t.guardLog = s.guardLog) (hl : t.latched = s.latched)
    (hq : t.sup = s.sup) (ht : t.time = s.time) :
    t.block acc = { t with
      guardLog := s.guardLog.take ⟨acc.addr, acc.data, acc.lanes, s.sup.seq, s.time⟩,
      latched := { s.latched with guard := true } } := by
  rw [← hg, ← hl, ← hq, ← ht]; rfl

/-- What the Guard Log takes (R31): a record while it has room, else a drop that holds at 255. -/
theorem GuardLog.take_eq (g : GuardLog) (r : LogRecord) :
    g.take r = if g.records.length < 16 then { g with records := g.records ++ [r] }
      else { g with dropped := if g.dropped < 255 then g.dropped + 1 else g.dropped } := rfl

/-- Where C does not wait, a take that claims nothing ends a reservation with a decision and is otherwise none of the
arbiter's business (R17). -/
theorem State.takeAtArbiter_false {s : State} (hw : s.arb.waitC = false) :
    s.takeAtArbiter false =
      if s.arb.reservation = none then s else { s with arb := { s.arb with reservation := none } }.decideGrant := by
  split
  · exact State.takeAtArbiter_false_of_unreserved ‹_›
  · have harb : ({ s.arb with waitC := s.arb.waitC || false, reservation := none } : Arbiter) =
        { s.arb with reservation := none } := by simp [hw]
    rw [State.takeAtArbiter_of_reserved false ‹_›, harb]

/-- The take at the arbiter that claims nothing does not see the controller's side either. -/
theorem State.takeAtArbiter_false_setSide {s : State} (hw : s.arb.waitC = false) (p : BusPins) (x : PortState) :
    ({ s with bus := p, port := x } : State).takeAtArbiter false = { s.takeAtArbiter false with bus := p, port := x } := by
  rw [State.takeAtArbiter_false hw, State.takeAtArbiter_false (s := { s with bus := p, port := x }) hw]
  dsimp only
  split
  · rfl
  · exact State.decideGrant_setSide (s := { s with arb := { s.arb with reservation := none } }) hw p x

/-- Settles O12: the take of an access that is not forwarded, by its class. -/
theorem accessAnsweredLocally : Obligations.AccessAnsweredLocally := by
  intro s p hs hp ht hw acc absent blocked u hu
  have hu' : s.takeAtArbiter false = u := hu ▸ State.takeAtArbiter_false hw
  have hx (hf : acc.forwarded = false) : exec (.accessTake p) s = .next (
      let t : State := { u with bus := p, port := s.port }
      if acc.write then { (if acc.cls.blocks then t.block acc else t) with port := .done acc none }
      else { t with port := .done acc (some 0) }) := by
    show Host.Outcome.next (s.moveBus p) = _
    rw [State.moveBus_of_takes ht, State.tryTake_of_takes (s := { s with bus := p }) hs ht hp,
      State.takeAccess_of_local (s := { s with bus := p }) hf, State.takeAtArbiter_false_setSide hw p s.port, hu']
  constructor
  · rintro ⟨n, g, hc⟩
    have hf : acc.forwarded = false := by simp [Access.forwarded, hc, Classification.isAbsent_region]
    have hb : acc.cls.blocks = false := by simp [hc, Classification.blocks_region]
    rw [hx hf, hb]
    cases acc.write <;> rfl
  · rintro ⟨hwr, n, k, hc, hk⟩
    have hf : acc.forwarded = false := by simp [Access.forwarded, hc, hwr, Classification.guarded]
    have hb : acc.cls.blocks = true := by simp [hc, Classification.blocks_region, hk]
    obtain ⟨b, m, o, hch⟩ := s.takeAtArbiter_changes false
    rw [hu'] at hch
    rw [hx hf, hb, hwr]
    refine congrArg Host.Outcome.next ?_
    have hbl := State.block_of_alike (s := s) (t := { u with bus := p, port := s.port }) (acc := acc)
      (by rw [hch]) (by rw [hch]) (by rw [hch]) (by rw [hch])
    simp only [if_true]
    rw [hbl, GuardLog.take_eq]
    rfl

/-! ## The end of a controller access (R2, R3, R17) -/

theorem State.afterControllerGrant_eq (s : State) :
    s.afterControllerGrant =
      if s.arb.count = 4 ∧ (s.arb.waitF = true ∨ s.arb.waitQ = true) then s.decideGrant
      else { s with arb := { s.arb with reservation := some (1000 * s.time.toNat + 250) } } := by
  unfold State.afterControllerGrant
  simp [Arbiter.engineWaits, reservationEnd]

/-- The completion of an access: DONE while the controller holds its cycle; else IDLE, which takes the cycle then on the bus
(R2, R3). -/
theorem State.completeAccess_outcomes {s : State} {acc : Access} {pins : BusPins} {level : Bool}
    (hp : s.port = .active acc) (hb : s.bus = pins) (hs : s.sysrstn = level) (word : Option Word) :
    (acc.ended = false → s.completeAccess word = { s with port := .done acc word })
    ∧ (acc.ended = true → (pins.takes = false ∨ level = false) → s.completeAccess word = { s with port := .idle })
    ∧ (acc.ended = true → pins.takes = true → level = true →
        .next (s.completeAccess word) = exec (.accessTake pins) { s with port := .idle }) := by
  subst hb hs
  unfold State.completeAccess
  rw [hp]
  dsimp only
  refine ⟨fun h => by rw [if_neg (by simp [h])], fun h hb => ?_, fun h hb hs => ?_⟩
  · rw [if_pos h, State.tryTake_of_not]
    exact hb.symm.imp id .inl
  · rw [if_pos h]
    show _ = Host.Outcome.next (({ s with port := .idle } : State).moveBus s.bus)
    rw [State.moveBus_of_takes hb]

/-- What the end of a controller grant leaves of the port, the bus and SYSRSTN. -/
theorem State.afterControllerGrant_keeps (s : State) :
    s.afterControllerGrant.port = s.port ∧ s.afterControllerGrant.bus = s.bus
      ∧ s.afterControllerGrant.sysrstn = s.sysrstn := by
  obtain ⟨b, m, o, h⟩ := s.afterControllerGrant_changes
  rw [h]
  exact ⟨rfl, rfl, rfl⟩

theorem exec_controllerReadDataReturn {s : State} {acc : Access} {a : Addr} (hg : s.arb.grant = some ⟨.c, .read⟩)
    (hm : s.mport = .reading a) (hp : s.port = .active acc) :
    exec .controllerReadDataReturn s =
      .next (s.endGrant.afterControllerGrant.completeAccess (some (overlay s.forces acc.cls a (s.mem.readWord a)))) := by
  show execControllerReadDataReturn s = _
  simp only [execControllerReadDataReturn, hg, hm, hp]

theorem exec_controllerWriteReachesMemory {s : State} {acc : Access} {a : Addr} {d : Word} {lanes : Lanes}
    (hg : s.arb.grant = some ⟨.c, .write⟩) (hm : s.mport = .writing a d lanes) (hp : s.port = .active acc) :
    exec .controllerWriteReachesMemory s =
      let t : State := { s with mem := s.mem.writeWord a d lanes }
      .next ((t.markerCheck acc.addr).endGrant.afterControllerGrant.completeAccess none) := by
  show execControllerWriteReachesMemory s = _
  simp only [execControllerWriteReachesMemory, hg, hm, hp]

/-- Settles O14: the word is the overlay's, and the access completes after the end of its grant. -/
theorem controllerReadReturns : Obligations.ControllerReadReturns := by
  intro s acc a hg hm hp
  refine ⟨_, overlaid_overlay s.forces acc.cls a (s.mem.readWord a), ?_⟩
  intro u v hu hv
  have hv' : s.endGrant.afterControllerGrant = v := by
    rw [State.afterControllerGrant_eq, hv, hu]; rfl
  obtain ⟨hpv, hbv, hsv⟩ := s.endGrant.afterControllerGrant_keeps
  rw [hv'] at hpv hbv hsv
  rw [exec_controllerReadDataReturn hg hm hp, hv']
  obtain ⟨hheld, hidle, htakes⟩ := State.completeAccess_outcomes (hpv.trans hp) hbv hsv
    (some (overlay s.forces acc.cls a (s.mem.readWord a)))
  exact ⟨fun h => congrArg _ (hheld h), fun h hb => congrArg _ (hidle h hb), htakes⟩

/-- Settles O15: memory takes the bytes of the lanes, the marker check follows, and then the end of the grant. -/
theorem controllerWriteReaches : Obligations.ControllerWriteReaches := by
  intro s acc a d lanes hwf hg hm hp
  refine ⟨_, Memory.readByte_writeWord s.mem hwf a d lanes, ?_⟩
  intro x u v hx hu hv
  have hx' : ({ s with mem := s.mem.writeWord a d lanes } : State).markerCheck acc.addr = x := hx.symm
  obtain ⟨_, _, _, _, _, _, _, _, _, hch⟩ :=
    ({ s with mem := s.mem.writeWord a d lanes } : State).markerCheck_changes acc.addr
  rw [hx'] at hch
  have hv' : x.endGrant.afterControllerGrant = v := by
    rw [State.afterControllerGrant_eq, hv, hu, hch]; rfl
  obtain ⟨hpv, hbv, hsv⟩ := x.endGrant.afterControllerGrant_keeps
  rw [hv'] at hpv hbv hsv
  have hbx : v.bus = s.bus := by rw [hbv, hch]; rfl
  have hsx : v.sysrstn = s.sysrstn := by rw [hsv, hch]; rfl
  have hpx : v.port = .active acc := by rw [hpv, hch]; exact hp
  rw [exec_controllerWriteReachesMemory hg hm hp]
  dsimp only
  rw [hx', hv']
  obtain ⟨hheld, hidle, htakes⟩ := State.completeAccess_outcomes hpx hbx hsx none
  exact ⟨fun h => congrArg _ (hheld h), fun h hb => congrArg _ (hidle h hb), htakes⟩

/-! ## The reservation, the pairs and the fall of SYSRSTN -/

theorem exec_reservationExpiry {s : State} {n : Nat} (h : s.arb.reservation = some n) :
    exec .reservationExpiry s = .next { s with arb := { s.arb with reservation := none } }.decideGrant := by
  show execReservationExpiry s = _
  rw [execReservationExpiry, h]

/-- Settles O16: the decision at the end of the reservation, which grants nothing where nobody waits. -/
theorem reservationExpires : Obligations.ReservationExpires := by
  intro s n h
  refine ⟨exec_reservationExpiry h, fun hw => (exec_reservationExpiry h).trans ?_⟩
  rw [State.decideGrant_of_none_waits (s := { s with arb := { s.arb with reservation := none } }) hw]

theorem exec_captureReadReturn {s : State} {h : Claimant} {a : Addr} {d : Word} {lanes : Lanes}
    (hg : s.arb.grant = some ⟨h, .captureRead d lanes⟩) (hm : s.mport = .reading a) :
    exec .captureReadReturn s =
      let t := s.capture a (s.mem.readWord a)
      .next { t with arb := { t.arb with grant := some ⟨h, .write⟩ }, mport := .writing a d lanes } := by
  show execCaptureReadReturn s = _
  simp only [execCaptureReadReturn, hg, hm]

theorem exec_modifyReadComplete {s : State} {a : Addr} {o : Operation} {rest : List Operation} {st cl : Word}
    (hg : s.arb.grant = some ⟨.q, .read⟩) (hm : s.mport = .reading a) (ho : s.ops = o :: rest)
    (hk : o.kind = .modify st cl) :
    exec .modifyReadComplete s =
      let t := s.capture a (s.mem.readWord a)
      .next { t with
        arb := { t.arb with grant := some ⟨.q, .write⟩ },
        mport := .writing a (substitute s.forces o.held a (modifyWord (s.mem.readWord a) st cl) Lanes.both) Lanes.both } := by
  show execModifyReadComplete s = _
  simp only [execModifyReadComplete, hg, hm, ho, hk]

/-- Settles O17: the capture and the write behind it, for a settled write and for a MODIFY. -/
theorem pairReadReturns : Obligations.PairReadReturns := by
  refine ⟨fun s h a d lanes hg hm t ht => ?_, fun s a o rest st cl hg hm ho hk hd => ?_⟩
  · rw [exec_captureReadReturn hg hm, ht]
  · refine ⟨modifyWord (s.mem.readWord a) st cl, _, fun i hi => getLsbD_modifyWord _ st cl hd hi,
      substituted_substitute s.forces o.held a _ Lanes.both, fun t ht => ?_⟩
    rw [exec_modifyReadComplete hg hm ho hk, ht]
    rfl

/-- A carried write reaches memory (R19). -/
theorem State.carryGrant_mem_of_settled {s : State} {h : Claimant} {a : Addr} {d : Word} {lanes : Lanes}
    (hs : s.arb.grant = some ⟨h, .captureRead d lanes⟩ ∧ s.mport = .reading a
      ∨ s.arb.grant = some ⟨h, .write⟩ ∧ s.mport = .writing a d lanes) :
    s.carryGrant.mem = s.mem.writeWord a d lanes := by
  have hmark : (if h = Claimant.c then ({ s with mem := s.mem.writeWord a d lanes } : State).markerCheck a
      else { s with mem := s.mem.writeWord a d lanes }).mem = s.mem.writeWord a d lanes := by
    split
    · obtain ⟨_, _, _, _, _, _, _, _, _, hch⟩ := ({ s with mem := s.mem.writeWord a d lanes } : State).markerCheck_changes a
      rw [hch]
    · rfl
  rcases hs with ⟨hg, hm⟩ | ⟨hg, hm⟩ <;> simpa only [State.carryGrant, hg, hm] using hmark

/-- A grant that only reads, or none, carries nothing to memory (R19). -/
theorem State.carryGrant_of_read {s : State} (h : ∀ g, s.arb.grant = some g → g.stage = .read) : s.carryGrant = s := by
  unfold State.carryGrant
  split
  · exact absurd (h _ ‹_›) (by simp)
  · exact absurd (h _ ‹_›) (by simp)
  · rfl

/-- Settles O20: memory after the fall is the carried grant's. -/
theorem sysrstnFalls : Obligations.SysrstnFalls := by
  intro s hs hwf _
  refine ⟨s.carryGrant.mem, fun h a d lanes hset k => ?_, fun hread => by rw [State.carryGrant_of_read hread], ?_⟩
  · rw [State.carryGrant_mem_of_settled hset]
    exact Memory.readByte_writeWord s.mem hwf a d lanes k
  · show execSysrstnFall s = _
    obtain ⟨_, _, _, _, _, _, _, _, _, _, hch⟩ := s.carryGrant_changes
    rw [execSysrstnFall, if_pos hs, State.resetBlocks, hch]

/-! ## Device reset -/

/-- The banks of device reset are in their places (R109). -/
theorem reset_meets_banksOk : State.reset.banksOk = true := by
  simp [State.banksOk, Bank.ok_empty]
  decide

/-- The state of device reset is coherent, relation by relation; shown here so that no proof rests on the tests. -/
theorem reset_meets_coherent : State.reset.Coherent where
  mem := State.reset_mem_wf
  regions := by decide
  guardLog := by decide
  forces := by decide
  placed := by decide
  marker := by intro a h; cases h
  lease := by decide
  queue := by decide
  watch := by decide
  supervisor := by decide
  link := by decide
  fill := by decide
  banks := reset_meets_banksOk
  path := by decide
  low := by intro h; cases h

/-- Settles O2: the values of State.reset, and that they are coherent. -/
theorem resetValues : Obligations.ResetValues := by
  refine ⟨reset_meets_coherent, rfl, rfl, rfl, by decide, ?_⟩
  exact ⟨rfl, rfl, rfl, rfl, rfl, rfl, rfl, rfl, rfl, rfl, rfl, rfl, rfl, rfl, rfl, rfl, rfl, rfl, rfl, rfl, rfl⟩

end Sys2Proof.Machine
end

section
/-! What every step keeps of the access path: the relations of State.PathOk at a port that nobody holds and at a held one,
and the grant decision that leads from the first to the second. -/

namespace Sys2Proof.Machine

/-! ## States alike on the access path -/

/-- The part of the state the access path reads and writes: memory and everything State.PathOk speaks of. -/
structure PathPart where
  mem : Memory
  port : PortState
  mport : MemPort
  arb : Arbiter
  ops : List Operation
  fill : Option Fill
  elements : List Element

def State.pathPart (s : State) : PathPart := ⟨s.mem, s.port, s.mport, s.arb, s.ops, s.fill, s.watch.elements⟩

/-- Two states stand alike on the access path. -/
abbrev State.SamePath (s t : State) : Prop := t.pathPart = s.pathPart

theorem State.SamePath.mem {s t : State} (h : s.SamePath t) : t.mem = s.mem := congrArg PathPart.mem h

theorem State.pendingAt_congr {s t : State} (hf : t.fill = s.fill) (he : t.watch.elements = s.watch.elements) (a : Addr) :
    t.pendingAt a = s.pendingAt a := by
  rw [State.pendingAt, State.pendingAt, hf, he]

/-- The relations of the access path hold in states alike on it. -/
theorem State.SamePath.pathOk {s t : State} (h : s.SamePath t) (hs : s.PathOk) : t.PathOk := by
  obtain ⟨-, hport, hmport, harb, hops, hfill, helems⟩ := PathPart.mk.injEq .. |>.mp h
  unfold State.PathOk State.mportOk State.portOk State.headOk State.fillClaimOk State.writeCaptured at hs ⊢
  simp only [State.pendingAt_congr hfill helems, hport, hmport, harb, hops, hfill]
  exact hs

/-! ## The claims -/

/-- C waits exactly while the Controller Port is ACTIVE, and with a forwarded access (R14). -/
abbrev State.ControllerClaims (s : State) : Prop :=
  (s.arb.waitC = true ↔ ∃ acc, s.port = .active acc)
    ∧ ∀ acc, s.port = .active acc → acc.forwarded = true ∧ acc.data &&& ~~~acc.lanes.mask = 0

/-- F waits exactly while a fill is in flight (R14). -/
abbrev State.FillClaims (s : State) : Prop := s.arb.waitF = s.fill.isSome

/-- Q waits exactly while the queue has a head, which is WAITING (R14, R76). -/
abbrev State.HeadClaims (s : State) : Prop :=
  s.arb.waitQ = headWaits s.ops ∧ ∀ o rest, s.ops = o :: rest → o.active = false

theorem Arbiter.holds_of_none {b : Arbiter} (h : b.grant = none) (holder : Claimant) : b.holds holder = false := by
  rw [Arbiter.holds, h]; rfl

theorem State.portOk_iff {s : State} (h : s.arb.holds .c = false) : s.portOk = true ↔ s.ControllerClaims := by
  unfold State.portOk
  cases hp : s.port <;> simp [State.ControllerClaims, h, hp, and_assoc, and_left_comm]

theorem State.headOk_iff {s : State} (h : s.arb.holds .q = false) : s.headOk = true ↔ s.HeadClaims := by
  unfold State.headOk
  cases ho : s.ops with
  | nil => simp [State.HeadClaims, h, ho]
  | cons o rest => cases ha : o.active <;> simp [State.HeadClaims, h, ho, ha]

theorem State.fillClaimOk_iff {s : State} (h : s.arb.holds .f = false) : s.fillClaimOk = true ↔ s.FillClaims := by
  unfold State.fillClaimOk
  cases hf : s.fill <;> simp [State.FillClaims, h, hf]

/-! ## The grant held -/

theorem Arbiter.holds_of_grant {b : Arbiter} {holder : Claimant} {stage : GrantStage}
    (hg : b.grant = some ⟨holder, stage⟩) (x : Claimant) : b.holds x = decide (holder = x) := by
  rw [Arbiter.holds, hg]; rfl

/-- The stage of a grant and what stands at memory are of the access's direction and lanes (R6, R10, R11). -/
def Access.fits (acc : Access) (m : MemPort) : GrantStage → Bool
  | .read => !acc.write
  | .captureRead _ l => acc.write && l = acc.lanes
  | .write => acc.write && (match m with | .writing _ _ l => l = acc.lanes | _ => false)

/-- The stage of a grant is one that an operation of this kind has (R77 to R79). -/
def OpKind.fits : OpKind → GrantStage → Bool
  | .read _, .read => true
  | .write _, .captureRead _ _ => true
  | .write _, .write => true
  | .modify _ _, .read => true
  | .modify _ _, .write => true
  | _, _ => false

/-- C's grant serves the access in progress, which no longer waits. -/
theorem State.portOk_iff_of_grant {s : State} {stage : GrantStage} (hg : s.arb.grant = some ⟨.c, stage⟩) :
    s.portOk = true ↔ s.arb.waitC = false ∧ ∃ acc, s.port = .active acc ∧ acc.forwarded = true
      ∧ acc.data &&& ~~~acc.lanes.mask = 0 ∧ s.mport.addr = some acc.addr ∧ acc.fits s.mport stage = true := by
  have hold : s.arb.holds .c = true := Arbiter.holds_of_grant hg .c
  unfold State.portOk
  cases hp : s.port with
  | idle => simp [hold]
  | done acc w => simp [hold]
  | active acc =>
    simp only [hold, hg, PortState.active.injEq, exists_eq_left', Bool.and_eq_true, decide_eq_true_eq]
    cases stage <;> simp [Access.fits] <;> tauto

/-- Q's grant serves the head of the queue, which is ACTIVE. -/
theorem State.headOk_iff_of_grant {s : State} {stage : GrantStage} (hg : s.arb.grant = some ⟨.q, stage⟩) :
    s.headOk = true ↔ s.arb.waitQ = false ∧ ∃ o rest, s.ops = o :: rest ∧ o.active = true
      ∧ s.mport.addr = some o.addr ∧ o.kind.fits stage = true := by
  have hold : s.arb.holds .q = true := Arbiter.holds_of_grant hg .q
  unfold State.headOk
  cases ho : s.ops with
  | nil => simp [hold]
  | cons o rest =>
    simp only [hold, hg, List.cons.injEq, headWaits]
    obtain ⟨kind, addr, origin, active, cls, dropped⟩ := o
    cases active with
    | false => simp +contextual
    | true => cases kind <;> cases stage <;> simp [OpKind.fits]

/-- F's grant reads (R114), and F does not wait beside it. -/
theorem State.fillClaimOk_iff_of_grant {s : State} {stage : GrantStage} (hg : s.arb.grant = some ⟨.f, stage⟩) :
    s.fillClaimOk = true ↔ s.arb.waitF = false ∧ stage = .read := by
  have hold : s.arb.holds .f = true := Arbiter.holds_of_grant hg .f
  unfold State.fillClaimOk
  rw [hold, hg]
  cases s.fill <;> cases stage <;> simp

/-! ## A port nobody holds -/

/-- What holds of a port that nobody holds: it is IDLE, and each claimant waits exactly while it has an access to make. -/
structure State.Unheld (s : State) : Prop where
  count : s.arb.count ≤ 4
  grant : s.arb.grant = none
  mport : s.mport = .idle
  controller : s.ControllerClaims
  fill : s.FillClaims
  head : s.HeadClaims

/-- At a port nobody holds, the relations of the access path are the claims, and that nobody waits without a reservation
(R15). -/
theorem State.Unheld.pathOk {s : State} (h : s.Unheld) (hr : s.arb.reservation = none → s.arb.anyWaits = false) :
    s.PathOk := by
  have hno := Arbiter.holds_of_none h.grant
  exact ⟨h.count, by simp [State.mportOk, h.grant, h.mport], (State.portOk_iff (hno _)).2 h.controller,
    (State.headOk_iff (hno _)).2 h.head, (State.fillClaimOk_iff (hno _)).2 h.fill, by simp [State.writeCaptured, h.mport],
    by simp [h.grant], by simpa [Arbiter.free, h.grant] using hr⟩

theorem State.unheld_of_pathOk {s : State} (h : s.PathOk) (hgrant : s.arb.grant = none) : s.Unheld := by
  obtain ⟨hcount, hm, hport, hhead, hfill, -, -, -⟩ := h
  have hno := Arbiter.holds_of_none hgrant
  refine ⟨hcount, hgrant, ?_, (State.portOk_iff (hno _)).1 hport, (State.fillClaimOk_iff (hno _)).1 hfill,
    (State.headOk_iff (hno _)).1 hhead⟩
  cases hp : s.mport <;> simp_all [State.mportOk]

/-! ## A fill that still needs a word -/

/-- The fill in flight, if there is one, has a state for each element and a PENDING one (R108, R119). -/
def State.FillOwed (s : State) : Prop :=
  ∀ f, s.fill = some f → f.states.length = s.watch.elements.length ∧ ElemState.pending ∈ f.states

theorem State.fillOwed_of_fillOk {s : State} (h : s.fillOk = true) : s.FillOwed := by
  intro f hf
  simp only [State.fillOk, hf, Bool.and_eq_true, decide_eq_true_eq, List.any_eq_true] at h
  obtain ⟨⟨⟨⟨-, -⟩, hlen⟩, st, hmem, hst⟩, -⟩ := h
  exact ⟨hlen, hst ▸ hmem⟩

theorem lowestPendingIn_isSome (es : List Element) (ss : List ElemState) (hlen : ss.length = es.length)
    (h : ElemState.pending ∈ ss) : ∃ a, lowestPendingIn es ss = some a := by
  induction es generalizing ss with
  | nil => simp_all
  | cons e es ih =>
    cases ss with
    | nil => simp at hlen
    | cons st ss =>
      rw [lowestPendingIn]
      split
      · exact ⟨_, rfl⟩
      · rename_i hst
        exact ih ss (by simpa using hlen) ((List.mem_cons.1 h).resolve_left (fun e => hst e.symm))

/-- F has a read to make exactly while a fill is in flight (R114). -/
theorem State.FillOwed.lowestPending {s : State} (h : s.FillOwed) {f : Fill} (hf : s.fill = some f) :
    ∃ a, s.lowestPending = some a := by
  obtain ⟨hlen, hmem⟩ := h f hf
  rw [State.lowestPending, hf]
  exact lowestPendingIn_isSome _ _ hlen hmem

theorem State.FillOwed.lowestPending_isSome {s : State} (h : s.FillOwed) : s.lowestPending.isSome = s.fill.isSome := by
  cases hf : s.fill with
  | none => rw [State.lowestPending, hf]; rfl
  | some f =>
    obtain ⟨a, ha⟩ := h.lowestPending hf
    rw [ha]; rfl

/-! ## A grant begun at a port nobody holds -/

section
variable {s : State} (h : s.Unheld) (hr : s.arb.reservation = none)
include h hr

theorem State.Unheld.grantRead_c {acc : Access} (hp : s.port = .active acc) (hw : acc.write = false)
    (hcount : s.arb.servingC.count ≤ 4) :
    (({ s with arb := s.arb.servingC } : State).grantRead .c acc.addr).PathOk := by
  obtain ⟨hfw, hdata⟩ := h.controller.2 acc hp
  refine ⟨hcount, rfl, ?_, (State.headOk_iff rfl).2 h.head, (State.fillClaimOk_iff rfl).2 h.fill, rfl, fun _ => hr,
    fun e => by cases e⟩
  exact (State.portOk_iff_of_grant rfl).2 ⟨rfl, acc, hp, hfw, hdata, rfl, by simp [Access.fits, hw]⟩

theorem State.Unheld.grantWrite_c {acc : Access} (hp : s.port = .active acc) (hw : acc.write = true)
    (hcount : s.arb.servingC.count ≤ 4) (d : Word) :
    (({ s with arb := s.arb.servingC } : State).grantWrite .c acc.addr d acc.lanes).PathOk := by
  obtain ⟨hfw, hdata⟩ := h.controller.2 acc hp
  cases hpend : ({ s with arb := s.arb.servingC } : State).pendingAt acc.addr with
  | true =>
    rw [State.grantWrite_of_pending hpend]
    refine ⟨hcount, rfl, ?_, (State.headOk_iff rfl).2 h.head, (State.fillClaimOk_iff rfl).2 h.fill, rfl, fun _ => hr,
      fun e => by cases e⟩
    exact (State.portOk_iff_of_grant rfl).2 ⟨rfl, acc, hp, hfw, hdata, rfl, by simp [Access.fits, hw]⟩
  | false =>
    rw [State.grantWrite_of_not_pending hpend]
    refine ⟨hcount, rfl, ?_, (State.headOk_iff rfl).2 h.head, (State.fillClaimOk_iff rfl).2 h.fill,
      congrArg not hpend, fun _ => hr, fun e => by cases e⟩
    exact (State.portOk_iff_of_grant rfl).2 ⟨rfl, acc, hp, hfw, hdata, rfl, by simp [Access.fits, hw]⟩

theorem State.Unheld.grantRead_f (a : Addr) :
    (({ s with arb := { s.arb with waitF := false, count := 0, lastEngine := .f } } : State).grantRead .f a).PathOk := by
  refine ⟨Nat.zero_le _, rfl, (State.portOk_iff rfl).2 h.controller, (State.headOk_iff rfl).2 h.head, ?_, rfl,
    fun _ => hr, fun e => by cases e⟩
  exact (State.fillClaimOk_iff_of_grant rfl).2 ⟨rfl, rfl⟩

variable {o : Operation} (rest : List Operation)

theorem State.Unheld.grantRead_q (hk : ∀ d, o.kind ≠ .write d) :
    (({ s with ops := { o with active := true } :: rest,
               arb := { s.arb with waitQ := false, count := 0, lastEngine := .q } } : State).grantRead .q o.addr).PathOk := by
  refine ⟨Nat.zero_le _, rfl, (State.portOk_iff rfl).2 h.controller, ?_, (State.fillClaimOk_iff rfl).2 h.fill, rfl,
    fun _ => hr, fun e => by cases e⟩
  refine (State.headOk_iff_of_grant rfl).2 ⟨rfl, _, rest, rfl, rfl, rfl, ?_⟩
  cases hkind : o.kind with
  | write d => exact absurd hkind (hk d)
  | read i => rfl
  | modify st cl => rfl

theorem State.Unheld.grantWrite_q {w : Word} (hk : o.kind = .write w) (d : Word) (lanes : Lanes) :
    (({ s with ops := { o with active := true } :: rest,
               arb := { s.arb with waitQ := false, count := 0, lastEngine := .q } } : State).grantWrite .q o.addr d
      lanes).PathOk := by
  cases hpend : ({ s with ops := { o with active := true } :: rest,
                          arb := { s.arb with waitQ := false, count := 0, lastEngine := .q } } : State).pendingAt o.addr with
  | true =>
    rw [State.grantWrite_of_pending hpend]
    refine ⟨Nat.zero_le _, rfl, (State.portOk_iff rfl).2 h.controller, ?_, (State.fillClaimOk_iff rfl).2 h.fill, rfl,
      fun _ => hr, fun e => by cases e⟩
    exact (State.headOk_iff_of_grant rfl).2 ⟨rfl, _, rest, rfl, rfl, rfl, by rw [hk]; rfl⟩
  | false =>
    rw [State.grantWrite_of_not_pending hpend]
    refine ⟨Nat.zero_le _, rfl, (State.portOk_iff rfl).2 h.controller, ?_, (State.fillClaimOk_iff rfl).2 h.fill,
      congrArg not hpend, fun _ => hr, fun e => by cases e⟩
    exact (State.headOk_iff_of_grant rfl).2 ⟨rfl, _, rest, rfl, rfl, rfl, by rw [hk]; rfl⟩

/-- A grant decision at an unreserved port that nobody holds leads to a port in order: it grants some claimant its access, or
nobody waits (R15, R16). -/
theorem State.Unheld.decideGrant_pathOk (hfill : s.FillOwed) : s.decideGrant.PathOk := by
  rcases s.arb.goesTo_cases with hc | hf | hq | hnone
  · rw [State.decideGrant_of_goesToC hc]
    obtain ⟨acc, hp⟩ := h.controller.1.1 hc.1
    have hcount : s.arb.servingC.count ≤ 4 := by
      unfold Arbiter.servingC
      rcases hc.2 with hlt | hw
      · dsimp only; split <;> omega
      · simp [not_or.1 hw]
    rw [State.grantController_eq hp]
    cases hw : acc.write with
    | true => exact h.grantWrite_c hr hp hw hcount _
    | false => exact h.grantRead_c hr hp hw hcount
  · rw [State.decideGrant_of_goesToF hf]
    have hsome : s.fill.isSome = true := h.fill ▸ hf.2.1
    obtain ⟨f, hfs⟩ := Option.isSome_iff_exists.1 hsome
    obtain ⟨a, ha⟩ := hfill.lowestPending hfs
    rw [State.grantEngine_f ha]
    exact h.grantRead_f hr a
  · rw [State.decideGrant_of_goesToQ hq]
    have hwaits : headWaits s.ops = true := h.head.1 ▸ hq.2.1
    cases ho : s.ops with
    | nil => rw [ho] at hwaits; cases hwaits
    | cons o rest =>
      by_cases hk : ∃ d, o.kind = .write d
      · obtain ⟨d, hk⟩ := hk
        rw [State.grantEngine_q_write ho hk]
        exact h.grantWrite_q hr rest hk _ _
      · have hk : ∀ d, o.kind ≠ .write d := fun d e => hk ⟨d, e⟩
        rw [State.grantEngine_q_read ho hk]
        exact h.grantRead_q hr rest hk
  · rw [State.decideGrant_of_none_waits hnone]
    exact h.pathOk fun _ => hnone

end

end Sys2Proof.Machine
end

section
/-! The commands that do not reach the access path: the link, the requests but those that queue operations or change the
Watch List, the pins and the time. -/

namespace Sys2Proof.Machine

/-! ## The shared operations -/

theorem State.setBank_samePath (s : State) (i : BankId) (b : Bank) : s.SamePath (s.setBank i b) := by
  obtain ⟨_, _, h⟩ := s.setBank_changes i b; rw [h]; rfl

theorem State.emptyBank_samePath (s : State) (i : BankId) : s.SamePath (s.emptyBank i) := by
  obtain ⟨_, _, h⟩ := s.emptyBank_changes i; rw [h]; rfl

theorem State.endExchange_samePath (s : State) (dest : BankState) : s.SamePath (s.endExchange dest) := by
  obtain ⟨_, _, h⟩ := s.endExchange_changes dest; rw [h]; rfl

theorem State.endTransfer_samePath (s : State) : s.SamePath s.endTransfer := by
  obtain ⟨_, _, _, _, h⟩ := s.endTransfer_changes; rw [h]; rfl

theorem State.endFrame_samePath (s : State) : s.SamePath s.endFrame := by
  obtain ⟨_, _, h⟩ := s.endFrame_changes; rw [h]; rfl

theorem State.discardFrame_samePath (s : State) : s.SamePath s.discardFrame := by
  obtain ⟨_, _, h⟩ := s.discardFrame_changes; rw [h]; rfl

theorem State.takeRequest_samePath (s : State) (code : Byte) : s.SamePath (s.takeRequest code) := by
  obtain ⟨_, _, _, _, h⟩ := s.takeRequest_changes code; rw [h]; rfl

theorem State.serveContinue_samePath (s : State) (segment : Nat) : s.SamePath (s.serveContinue segment) := by
  obtain ⟨_, _, _, _, h⟩ := s.serveContinue_changes segment; rw [h]; rfl

theorem State.actBroadcast_samePath (s : State) (payload : List Byte) : s.SamePath (s.actBroadcast payload) := by
  obtain ⟨_, _, h⟩ := s.actBroadcast_changes payload; rw [h]; rfl

theorem State.enterStall_samePath (s : State) : s.SamePath s.enterStall := by
  obtain ⟨_, h⟩ := s.enterStall_changes; rw [h]; rfl

theorem State.examineRecord_samePath (s : State) : s.SamePath s.examineRecord := by
  obtain ⟨_, _, _, h⟩ := s.examineRecord_changes; rw [h]; rfl

/-- A change made under a condition alone. -/
theorem State.ite_samePath {s t : State} (c : Prop) [Decidable c] (h : s.SamePath t) : s.SamePath (if c then t else s) := by
  split
  · exact h
  · rfl

theorem State.takeExpiries_samePath (s : State) : s.SamePath s.takeExpiries := by
  unfold State.takeExpiries
  dsimp only
  refine (State.ite_samePath _ (State.endTransfer_samePath _)).trans ?_
  refine (State.ite_samePath _ (State.enterStall_samePath _)).trans ?_
  exact State.ite_samePath _ rfl

/-! ## The requests -/

/-- A request row's command keeps what holds of the state and of the request carried out. -/
theorem State.onRequest_keeps {s t : State} {c : RxChar} {code : Byte} {carryOut : List Byte → State → State}
    (P : State → Prop) (hs : P s) (hk : ∀ params, P (carryOut params (s.takeRequest code)))
    (h : s.onRequest c code carryOut = .next t) : P t := by
  unfold State.onRequest at h
  split at h
  · cases h
    split
    · exact hk _
    · exact hs
  · cases h
    exact hs

/-- A request that leaves the access path as it is, in its carrying out. -/
theorem State.onRequest_samePath {s t : State} {c : RxChar} {code : Byte} {carryOut : List Byte → State → State}
    (h : s.onRequest c code carryOut = .next t) (hk : ∀ params (u : State), u.SamePath (carryOut params u)) :
    s.SamePath t :=
  State.onRequest_keeps s.SamePath rfl (fun params => (hk params _).trans (s.takeRequest_samePath code)) h

theorem withoutParams_samePath {carryOut : State → State} (hk : ∀ u : State, u.SamePath (carryOut u))
    (params : List Byte) (u : State) : u.SamePath (withoutParams carryOut params u) := by
  unfold withoutParams
  split
  · exact hk u
  · rfl

theorem doProbe_samePath (params : List Byte) (u : State) : u.SamePath (doProbe params u) := by
  unfold doProbe; split <;> rfl

theorem doLevel_samePath (params : List Byte) (u : State) : u.SamePath (doLevel params u) := by
  unfold doLevel; split <;> rfl

theorem doWatchArm_samePath (params : List Byte) (u : State) : u.SamePath (doWatchArm params u) := by
  unfold doWatchArm
  split
  · rfl
  · split <;> rfl

theorem doSnapRead_samePath (params : List Byte) (u : State) : u.SamePath (doSnapRead params u) := by
  unfold doSnapRead
  split
  · rfl
  · split
    · rfl
    · exact State.setBank_samePath u _ _

theorem State.acknowledge_samePath (u : State) : u.SamePath u.acknowledge := by
  unfold State.acknowledge
  split
  · exact u.emptyBank_samePath .a
  · split
    · exact u.emptyBank_samePath .b
    · rfl

theorem doScanConfig_samePath (params : List Byte) (u : State) : u.SamePath (doScanConfig params u) := by
  unfold doScanConfig
  split
  · rfl
  · split
    · rfl
    · split <;> rfl

theorem doScanStats_samePath (params : List Byte) (u : State) : u.SamePath (doScanStats params u) := by
  unfold doScanStats; split <;> rfl

theorem doRegionSet_samePath (params : List Byte) (u : State) : u.SamePath (doRegionSet params u) := by
  unfold doRegionSet
  split
  · rfl
  · dsimp only
    split
    · rfl
    · split
      · rfl
      · split <;> rfl

theorem doAlertClear_samePath (params : List Byte) (u : State) : u.SamePath (doAlertClear params u) := by
  unfold doAlertClear; split <;> rfl

theorem doAlertEnable_samePath (params : List Byte) (u : State) : u.SamePath (doAlertEnable params u) := by
  unfold doAlertEnable; split <;> rfl

/-! ## The commands -/

theorem execCtlrunRise_samePath {s t : State} (h : execCtlrunRise s = .next t) : s.SamePath t := by
  cases h
  dsimp only
  split <;> rfl

theorem execCtlrunFall_samePath {s t : State} (h : execCtlrunFall s = .next t) : s.SamePath t := by
  cases h
  dsimp only
  split <;> rfl

theorem execScanLimitExpiry_samePath {s t : State} (h : execScanLimitExpiry s = .next t) : s.SamePath t := by
  cases h
  exact State.ite_samePath _ s.enterStall_samePath

theorem execLeaseExpiry_samePath {s t : State} (h : execLeaseExpiry s = .next t) : s.SamePath t := by
  cases h
  exact State.ite_samePath _ rfl

theorem execContinuationLimit_samePath {s t : State} (h : execContinuationLimit s = .next t) : s.SamePath t := by
  cases h
  exact State.ite_samePath _ s.endTransfer_samePath

theorem execTimeBaseTick_samePath {s t : State} (h : execTimeBaseTick s = .next t) : s.SamePath t := by
  cases h
  exact State.ite_samePath (t := s.takeExpiries.countMicro) _ s.takeExpiries_samePath

theorem execLrxReturnsToMark_samePath {s t : State} (h : execLrxReturnsToMark s = .next t) : s.SamePath t := by
  cases h
  rfl

theorem execFrameStart_samePath {s t : State} {c : RxChar} (h : execFrameStart c s = .next t) : s.SamePath t := by
  cases h
  refine State.ite_samePath _ ?_
  dsimp only
  split <;> rfl

theorem execFrameCharacterTaken_samePath {s t : State} {c : RxChar} (h : execFrameCharacterTaken c s = .next t) :
    s.SamePath t := by
  unfold execFrameCharacterTaken at h
  split at h <;> cases h
  · rfl
  · exact State.ite_samePath _ rfl

theorem execOverlongLength_samePath {s t : State} {c : RxChar} (h : execOverlongLength c s = .next t) :
    s.SamePath t := by
  unfold execOverlongLength at h
  split at h <;> cases h
  · rfl
  · exact State.ite_samePath _ s.discardFrame_samePath

theorem execInterByteTimeout_samePath {s t : State} (h : execInterByteTimeout s = .next t) : s.SamePath t := by
  unfold execInterByteTimeout at h
  split at h <;> cases h
  · rfl
  · exact State.ite_samePath _ s.discardFrame_samePath

theorem execTurnViolationAtFinalByte_samePath {s t : State} {c : RxChar} (h : execTurnViolationAtFinalByte c s = .next t) :
    s.SamePath t := by
  cases h
  exact State.ite_samePath _ s.discardFrame_samePath

theorem execBadFrame_samePath {s t : State} {c : RxChar} (h : execBadFrame c s = .next t) : s.SamePath t := by
  cases h
  exact State.ite_samePath _ s.discardFrame_samePath

theorem execIgnoredFrame_samePath {s t : State} {c : RxChar} (h : execIgnoredFrame c s = .next t) : s.SamePath t := by
  cases h
  exact State.ite_samePath _ s.endFrame_samePath

theorem execRequestOtherNode_samePath {s t : State} {c : RxChar} (h : execRequestOtherNode c s = .next t) :
    s.SamePath t := by
  cases h
  exact State.ite_samePath _ (s.endFrame.endTransfer_samePath.trans s.endFrame_samePath)

theorem execBroadcastRequest_samePath {s t : State} {c : RxChar} (h : execBroadcastRequest c s = .next t) :
    s.SamePath t := by
  unfold execBroadcastRequest at h
  split at h <;> cases h
  · exact (State.actBroadcast_samePath _ _).trans (s.endFrame.endTransfer_samePath.trans s.endFrame_samePath)
  · rfl

theorem execContinueFrame_samePath {s t : State} {c : RxChar} (h : execContinueFrame c s = .next t) : s.SamePath t := by
  unfold execContinueFrame at h
  split at h <;> cases h
  · split
    · exact (State.serveContinue_samePath _ _).trans s.endFrame_samePath
    · exact s.endFrame_samePath
  · exact s.endFrame_samePath
  · rfl

theorem execAbortFrame_samePath {s t : State} {c : RxChar} (h : execAbortFrame c s = .next t) : s.SamePath t := by
  unfold execAbortFrame at h
  have ht : s.SamePath s.endFrame.endTransfer := s.endFrame.endTransfer_samePath.trans s.endFrame_samePath
  split at h <;> cases h
  · split
    · exact ht
    · exact ht
  · rfl

theorem execFrameTransmitStart_samePath {s t : State} (h : execFrameTransmitStart s = .next t) : s.SamePath t := by
  cases h
  refine State.ite_samePath _ ?_
  dsimp only
  split
  · split
    · exact s.discardFrame_samePath
    · rfl
  · rfl

theorem execFrameSent_samePath {s t : State} (h : execFrameSent s = .next t) : s.SamePath t := by
  unfold execFrameSent at h
  split at h <;> cases h
  · rfl
  · exact State.ite_samePath _ (s.endExchange_samePath .ready)
  · refine State.ite_samePath _ ?_
    split
    · exact s.endExchange_samePath .sent
    · rfl

theorem execEmptyRequest_samePath {s t : State} {c : RxChar} (h : execEmptyRequest c s = .next t) : s.SamePath t := by
  cases h
  exact State.ite_samePath (t := (s.takeRequest 0x00).answer .format []) _ (s.takeRequest_samePath 0x00)

theorem execUnknownRequest_samePath {s t : State} {c : RxChar} (h : execUnknownRequest c s = .next t) :
    s.SamePath t := by
  unfold execUnknownRequest at h
  split at h
  · rename_i k _ _
    cases h
    split
    · rfl
    · exact s.takeRequest_samePath k
  · cases h
    rfl

/-- The commands that do not reach the access path. -/
def offPath : Instr → Bool
  | .ctlrunRise | .ctlrunFall | .scanLimitExpiry | .leaseExpiry | .frameStart _ | .overlongLength _
  | .interByteTimeout | .badFrame _ | .ignoredFrame _ | .requestOtherNode _ | .broadcastRequest _ | .continueFrame _
  | .abortFrame _ | .continuationLimit | .frameTransmitStart | .frameSent | .emptyRequest _ | .unknownRequest _
  | .probe _ | .identify _ | .status _ | .level _ | .sync _ | .releaseAll _ | .forceList _ | .watchList _ | .watchArm _
  | .watchStop _ | .snapRead _ | .snapAck _ | .scanConfig _ | .scanStats _ | .regionSet _ | .regionList _ | .logRead _
  | .alertClear _ | .alertEnable _ | .timeBaseTick | .lrxReturnsToMark | .frameCharacterTaken _
  | .turnViolationAtFinalByte _ => true
  | _ => false

/-- A command off the access path leaves it as it is. -/
theorem exec_samePath_of_offPath {i : Instr} {s t : State} (hi : offPath i = true) (h : exec i s = .next t) :
    s.SamePath t := by
  cases i with
  | ctlrunRise => exact execCtlrunRise_samePath h
  | ctlrunFall => exact execCtlrunFall_samePath h
  | scanLimitExpiry => exact execScanLimitExpiry_samePath h
  | leaseExpiry => exact execLeaseExpiry_samePath h
  | continuationLimit => exact execContinuationLimit_samePath h
  | timeBaseTick => exact execTimeBaseTick_samePath h
  | lrxReturnsToMark => exact execLrxReturnsToMark_samePath h
  | frameStart c => exact execFrameStart_samePath h
  | frameCharacterTaken c => exact execFrameCharacterTaken_samePath h
  | overlongLength c => exact execOverlongLength_samePath h
  | interByteTimeout => exact execInterByteTimeout_samePath h
  | turnViolationAtFinalByte c => exact execTurnViolationAtFinalByte_samePath h
  | badFrame c => exact execBadFrame_samePath h
  | ignoredFrame c => exact execIgnoredFrame_samePath h
  | requestOtherNode c => exact execRequestOtherNode_samePath h
  | broadcastRequest c => exact execBroadcastRequest_samePath h
  | continueFrame c => exact execContinueFrame_samePath h
  | abortFrame c => exact execAbortFrame_samePath h
  | frameTransmitStart => exact execFrameTransmitStart_samePath h
  | frameSent => exact execFrameSent_samePath h
  | emptyRequest c => exact execEmptyRequest_samePath h
  | unknownRequest c => exact execUnknownRequest_samePath h
  | probe c => exact State.onRequest_samePath h doProbe_samePath
  | identify c => exact State.onRequest_samePath h (withoutParams_samePath fun _ => rfl)
  | status c => exact State.onRequest_samePath h (withoutParams_samePath fun _ => rfl)
  | level c => exact State.onRequest_samePath h doLevel_samePath
  | sync c => exact State.onRequest_samePath h (withoutParams_samePath fun u => State.examineRecord_samePath _)
  | releaseAll c => exact State.onRequest_samePath h (withoutParams_samePath fun _ => rfl)
  | forceList c => exact State.onRequest_samePath h (withoutParams_samePath fun _ => rfl)
  | watchList c => exact State.onRequest_samePath h (withoutParams_samePath fun _ => rfl)
  | watchArm c => exact State.onRequest_samePath h doWatchArm_samePath
  | watchStop c => exact State.onRequest_samePath h (withoutParams_samePath fun _ => rfl)
  | snapRead c => exact State.onRequest_samePath h doSnapRead_samePath
  | snapAck c => exact State.onRequest_samePath h (withoutParams_samePath State.acknowledge_samePath)
  | scanConfig c => exact State.onRequest_samePath h doScanConfig_samePath
  | scanStats c => exact State.onRequest_samePath h doScanStats_samePath
  | regionSet c => exact State.onRequest_samePath h doRegionSet_samePath
  | regionList c => exact State.onRequest_samePath h (withoutParams_samePath fun _ => rfl)
  | logRead c => exact State.onRequest_samePath h (withoutParams_samePath fun _ => rfl)
  | alertClear c => exact State.onRequest_samePath h doAlertClear_samePath
  | alertEnable c => exact State.onRequest_samePath h doAlertEnable_samePath
  | _ => cases hi

end Sys2Proof.Machine
end

section
/-! The controller's side of the access path: a take, the end of a cycle and the end of an access keep State.PathOk. -/

namespace Sys2Proof.Machine

/-! ## The port between two accesses -/

/-- The port holds no access in progress. -/
def PortState.resting : PortState → Bool
  | .active _ => false
  | .idle | .done _ _ => true

theorem PortState.not_active_of_resting {p : PortState} (h : p.resting = true) (acc : Access) : p ≠ .active acc := by
  rintro rfl; cases h

theorem State.portOk_of_resting {s : State} (h : s.port.resting = true) :
    s.portOk = (!s.arb.waitC && !s.arb.holds .c) := by
  unfold State.portOk
  cases hp : s.port with
  | active acc => exact absurd hp (PortState.not_active_of_resting h acc)
  | idle => rfl
  | done acc w => rfl

/-- With no access in progress C neither waits nor holds the grant. -/
theorem State.PathOk.none_for_c {s : State} (h : s.PathOk) (hp : s.port.resting = true) :
    s.arb.waitC = false ∧ s.arb.holds .c = false := by
  obtain ⟨-, -, hport, -⟩ := h
  simpa [State.portOk_of_resting hp] using hport

/-- Between two accesses the port may change to any other resting state. -/
theorem State.PathOk.setPort {s : State} (h : s.PathOk) {p : PortState} (hs : s.port.resting = true)
    (hp : p.resting = true) : ({ s with port := p } : State).PathOk := by
  obtain ⟨hcount, hm, hport, hrest⟩ := h
  refine ⟨hcount, hm, ?_, hrest⟩
  rw [State.portOk_of_resting (s := { s with port := p }) hp]
  rwa [State.portOk_of_resting hs] at hport

/-- A reserved port is held by nobody (R17). -/
theorem State.PathOk.grant_of_reserved {s : State} (h : s.PathOk) (hr : s.arb.reservation ≠ none) : s.arb.grant = none := by
  obtain ⟨-, -, -, -, -, -, hres, -⟩ := h
  exact by_contra fun hg => hr (hres hg)

/-- At a free and unreserved port nobody waits (R15). -/
theorem State.PathOk.none_waits {s : State} (h : s.PathOk) (hg : s.arb.grant = none) (hr : s.arb.reservation = none) :
    s.arb.anyWaits = false := by
  obtain ⟨-, -, -, -, -, -, -, hfree⟩ := h
  exact hfree (by simp [Arbiter.free, hg, hr])

/-! ## A take (R1, R17) -/

/-- A forwarded access joins the claims at a port nobody holds (R14). -/
theorem State.Unheld.claim {s : State} (h : s.Unheld) {acc : Access} (hf : acc.forwarded = true)
    (hd : acc.data &&& ~~~acc.lanes.mask = 0) :
    ({ s with port := .active acc, arb := { s.arb with waitC := true, reservation := none } } : State).Unheld :=
  ⟨h.count, h.grant, h.mport, ⟨iff_of_true rfl ⟨acc, rfl⟩, by rintro _ ⟨⟩; exact ⟨hf, hd⟩⟩, h.fill, h.head⟩

theorem State.Unheld.endReservation {s : State} (h : s.Unheld) :
    ({ s with arb := { s.arb with reservation := none } } : State).Unheld :=
  ⟨h.count, h.grant, h.mport, h.controller, h.fill, h.head⟩

/-- A forwarded access waits at a port that is held. -/
theorem State.PathOk.claim_of_held {s : State} (h : s.PathOk) (hp : s.port.resting = true) (hg : s.arb.grant ≠ none)
    {acc : Access} (hf : acc.forwarded = true) (hd : acc.data &&& ~~~acc.lanes.mask = 0) :
    ({ s with port := .active acc, arb := { s.arb with waitC := true, reservation := none } } : State).PathOk := by
  obtain ⟨-, hc⟩ := h.none_for_c hp
  obtain ⟨hcount, hm, -, hhead, hfill, hwrite, -, -⟩ := h
  let t : State := { s with port := .active acc, arb := { s.arb with waitC := true, reservation := none } }
  refine ⟨hcount, hm, ?_, hhead, hfill, hwrite, fun _ => rfl, fun hfree => absurd hfree (by simp [Arbiter.free, hg])⟩
  exact (State.portOk_iff (s := t) hc).2 ⟨iff_of_true rfl ⟨acc, rfl⟩, by rintro _ ⟨⟩; exact ⟨hf, hd⟩⟩

/-- The take of a forwarded access (R14, R15, R17). -/
theorem State.PathOk.takeForwarded {s : State} (h : s.PathOk) (hfill : s.FillOwed) (hp : s.port.resting = true)
    {acc : Access} (hf : acc.forwarded = true) (hd : acc.data &&& ~~~acc.lanes.mask = 0) :
    (({ s with port := .active acc } : State).takeAtArbiter true).PathOk := by
  by_cases hr : s.arb.reservation = none
  · by_cases hg : s.arb.grant = none
    · rw [State.takeAtArbiter_of_free (s := { s with port := .active acc }) hg hr (h.none_waits hg hr)]
      exact ((State.unheld_of_pathOk h hg).claim hf hd).decideGrant_pathOk rfl hfill
    · rw [State.takeAtArbiter_of_held (s := { s with port := .active acc }) hg hr]
      exact h.claim_of_held hp hg hf hd
  · rw [State.takeAtArbiter_of_reserved (s := { s with port := .active acc }) true hr, Bool.or_true]
    exact ((State.unheld_of_pathOk h (h.grant_of_reserved hr)).claim hf hd).decideGrant_pathOk rfl hfill

/-- The take of an access that makes no claim (R17). -/
theorem State.PathOk.takeLocal {s : State} (h : s.PathOk) (hfill : s.FillOwed) (hp : s.port.resting = true) :
    (s.takeAtArbiter false).PathOk := by
  rw [State.takeAtArbiter_false (h.none_for_c hp).1]
  split
  · exact h
  · rename_i hr
    exact (State.unheld_of_pathOk h (h.grant_of_reserved hr)).endReservation.decideGrant_pathOk rfl hfill

/-- The taking of the cycle on the bus keeps the access path in order (R1, R3). -/
theorem State.PathOk.tryTake {s : State} (h : s.PathOk) (hfill : s.FillOwed) : s.tryTake.PathOk := by
  by_cases htake : s.sysrstn = true ∧ s.bus.takes = true ∧ s.port = .idle
  · obtain ⟨hs, hb, hidle⟩ := htake
    have hp : s.port.resting = true := by rw [hidle]; rfl
    rw [State.tryTake_of_takes hs hb hidle]
    cases hf : (heldAccess s.regions s.bus).forwarded with
    | true =>
      rw [State.takeAccess_of_forwarded hf]
      exact h.takeForwarded hfill hp hf (accessOf_eq_heldAccess s.regions s.bus ▸ accessOf_data_masked s.regions s.bus)
    | false =>
      rw [State.takeAccess_of_local hf]
      have ht := h.takeLocal hfill hp
      have htp : (s.takeAtArbiter false).port.resting = true := by
        obtain ⟨_, _, _, hch⟩ := s.takeAtArbiter_changes false
        rw [hch]; exact hp
      have hdone (x : Option Word) := ht.setPort (p := .done (heldAccess s.regions s.bus) x) htp rfl
      dsimp only
      split
      · split
        · exact State.SamePath.pathOk (t := { (s.takeAtArbiter false).block _ with port := .done _ none }) rfl (hdone none)
        · exact hdone none
      · exact hdone (some 0)
  · rw [State.tryTake_of_not]
    · exact h
    · simpa [imp_iff_not_or] using htake

theorem State.PathOk.cycleEnds {s : State} (h : s.PathOk) (p : BusPins) :
    ({ s with bus := p, port := s.port.cycleEnds } : State).PathOk := by
  obtain ⟨hcount, hm, hport, hrest⟩ := h
  refine ⟨hcount, hm, ?_, hrest⟩
  unfold State.portOk at hport ⊢
  cases hp : s.port <;> rw [hp] at hport <;> exact hport

/-- A movement of the bus keeps the access path in order (R1, R2, R3). -/
theorem State.PathOk.moveBus {s : State} (h : s.PathOk) (hfill : s.FillOwed) (p : BusPins) : (s.moveBus p).PathOk := by
  cases hb : p.takes with
  | true =>
    rw [State.moveBus_of_takes hb]
    exact State.PathOk.tryTake (s := { s with bus := p }) (State.SamePath.pathOk rfl h) hfill
  | false =>
    rw [State.moveBus_of_not_takes hb]
    exact h.cycleEnds p

/-! ## The end of a controller access (R2, R3, R17) -/

/-- The end of a grant of C, with no access in progress, leads to a port in order: the reservation, or a decision (R17). -/
theorem State.Unheld.afterControllerGrant {s : State} (h : s.Unheld) (hr : s.arb.reservation = none)
    (hfill : s.FillOwed) : s.afterControllerGrant.PathOk := by
  rw [State.afterControllerGrant_eq]
  split
  · exact h.decideGrant_pathOk hr hfill
  · exact State.Unheld.pathOk (s := { s with arb := { s.arb with reservation := some _ } })
      ⟨h.count, h.grant, h.mport, h.controller, h.fill, h.head⟩ (fun e => by cases e)

theorem State.afterControllerGrant_setSide {s : State} (hw : s.arb.waitC = false) (p : BusPins) (x : PortState) :
    ({ s with bus := p, port := x } : State).afterControllerGrant = { s.afterControllerGrant with bus := p, port := x } := by
  rw [State.afterControllerGrant_eq, State.afterControllerGrant_eq]
  dsimp only
  split
  · exact State.decideGrant_setSide hw p x
  · rfl

/-- The completion of an access after the end of its grant, when the port stands in order at the grant's end with any resting
state in the access's place. -/
theorem State.completeAccess_pathOk {s : State} {acc : Access} (hp : s.port = .active acc) (hw : s.arb.waitC = false)
    (hr : s.arb.reservation = none) (hfill : s.FillOwed)
    (hrest : ∀ x : PortState, x.resting = true → ({ s with port := x } : State).Unheld) (word : Option Word) :
    (s.afterControllerGrant.completeAccess word).PathOk := by
  obtain ⟨b, m, o, hch⟩ := s.afterControllerGrant_changes
  have hset (x : PortState) (hx : x.resting = true) : ({ s.afterControllerGrant with port := x } : State).PathOk := by
    have ht := (hrest x hx).afterControllerGrant hr hfill
    rw [State.afterControllerGrant_setSide hw s.bus x] at ht
    exact State.SamePath.pathOk rfl ht
  unfold State.completeAccess
  rw [show s.afterControllerGrant.port = .active acc by rw [hch]; exact hp]
  dsimp only
  split
  · exact (hset .idle rfl).tryTake (by rw [hch]; exact hfill)
  · exact hset _ rfl

end Sys2Proof.Machine
end

section
/-! The Capture Unit, the marker and the Operation Queue as the access path sees them: F's claim follows the fill, and Q's
claim the head of the queue. -/

namespace Sys2Proof.Machine

/-! ## Captures (R116, R119) -/

theorem capturePlaces_length {α : Type} (a : Addr) (value : Element → α) (es : List Element) (ss : List ElemState)
    (xs : List α) : (capturePlaces a value es ss xs).length = xs.length := by
  induction es generalizing ss xs with
  | nil => rfl
  | cons e es ih =>
    cases ss with
    | nil => rfl
    | cons st ss =>
      cases xs with
      | nil => rfl
      | cons x xs => simp [capturePlaces, ih]

/-- After a capture no element is PENDING at its address (R117). -/
theorem pendingIn_capturePlaces (a : Addr) (es : List Element) (ss : List ElemState) :
    pendingIn a es (capturePlaces a (fun _ => ElemState.captured) es ss ss) = false := by
  induction es generalizing ss with
  | nil => rfl
  | cons e es ih =>
    cases ss with
    | nil => rfl
    | cons st ss =>
      rw [capturePlaces, pendingIn, ih]
      by_cases hp : st = .pending ∧ e.addr = a
      · simp [hp]
      · simp only [Bool.or_false, Bool.and_eq_true, decide_eq_true_eq, hp, if_false, Bool.and_eq_false_imp,
          decide_eq_false_iff_not]
        exact fun h1 h2 => hp ⟨h1, h2⟩

theorem captureInto_fill (s : State) (f : Fill) (a : Addr) (w : Word) :
    (captureInto s f a w).fill =
      some { f with states := capturePlaces a (fun _ => .captured) s.watch.elements f.states f.states } := rfl

/-- The settling of a fill, by what is in flight (R119). -/
theorem State.settleFill_cases (s : State) :
    s.fill = none ∧ s.settleFill = s
    ∨ (∃ f, s.fill = some f ∧ s.settleFill = completeFill s f)
    ∨ (∃ f, s.fill = some f ∧ ElemState.pending ∈ f.states ∧ s.settleFill = s) := by
  unfold State.settleFill
  cases hf : s.fill with
  | none => exact .inl ⟨rfl, rfl⟩
  | some f =>
    dsimp only
    split
    · exact .inr (.inl ⟨f, rfl, rfl⟩)
    · rename_i hall
      refine .inr (.inr ⟨f, rfl, ?_, rfl⟩)
      obtain ⟨st, hmem, hst⟩ : ∃ st ∈ f.states, st ≠ ElemState.captured := by simpa using hall
      cases st with
      | pending => exact hmem
      | captured => exact absurd rfl hst

/-- After a fill is settled, the one in flight has a PENDING element (R119). -/
theorem State.settleFill_fillOwed {s : State} (h : ∀ f, s.fill = some f → f.states.length = s.watch.elements.length) :
    s.settleFill.FillOwed := by
  rcases s.settleFill_cases with ⟨hf, hs⟩ | ⟨f, -, hs⟩ | ⟨f, hf, hpend, hs⟩
  · intro g hg
    rw [hs, hf] at hg; cases hg
  · intro g hg
    obtain ⟨_, _, hc⟩ := completeFill_changes s f
    rw [hs, hc] at hg; cases hg
  · rw [hs]
    intro g hg
    cases hf.symm.trans hg
    exact ⟨h f hf, hpend⟩

/-- After a fill is settled F waits exactly while one is in flight, where before F waited for every PENDING element and
otherwise only for a fill (R14, R119). -/
theorem State.settleFill_fillClaims {s : State} (hnone : s.fill = none → s.arb.waitF = false)
    (hsome : ∀ f, s.fill = some f → ElemState.pending ∈ f.states → s.arb.waitF = true) : s.settleFill.FillClaims := by
  rcases s.settleFill_cases with ⟨hf, hs⟩ | ⟨f, -, hs⟩ | ⟨f, hf, hpend, hs⟩
  · rw [hs]
    exact (hnone hf).trans (by rw [hf]; rfl)
  · obtain ⟨_, _, hc⟩ := completeFill_changes s f
    rw [hs, hc]
    rfl
  · rw [hs]
    exact (hsome f hf hpend).trans (by rw [hf]; rfl)

theorem State.settleFill_pendingAt {s : State} {a : Addr} (h : s.pendingAt a = false) : s.settleFill.pendingAt a = false := by
  rcases s.settleFill_cases with ⟨-, hs⟩ | ⟨f, -, hs⟩ | ⟨f, -, -, hs⟩
  · rw [hs]; exact h
  · obtain ⟨_, _, hc⟩ := completeFill_changes s f
    rw [hs, hc]; rfl
  · rw [hs]; exact h

theorem State.capture_of_none {s : State} (h : s.fill = none) (a : Addr) (w : Word) : s.capture a w = s := by
  rw [State.capture, h]

theorem State.capture_of_some {s : State} {f : Fill} (h : s.fill = some f) (a : Addr) (w : Word) :
    s.capture a w = (captureInto s f a w).settleFill := by
  rw [State.capture, h]

theorem captureInto_watch (s : State) (f : Fill) (a : Addr) (w : Word) : (captureInto s f a w).watch = s.watch := by
  obtain ⟨_, _, _, h⟩ := captureInto_changes s f a w; rw [h]

theorem captureInto_arb (s : State) (f : Fill) (a : Addr) (w : Word) : (captureInto s f a w).arb = s.arb := by
  obtain ⟨_, _, _, h⟩ := captureInto_changes s f a w; rw [h]

/-- A capture leaves a fill in flight with a PENDING element (R119). -/
theorem State.FillOwed.capture {s : State} (h : s.FillOwed) (a : Addr) (w : Word) : (s.capture a w).FillOwed := by
  cases hf : s.fill with
  | none => rw [State.capture_of_none hf]; exact h
  | some f =>
    rw [State.capture_of_some hf]
    refine State.settleFill_fillOwed fun g hg => ?_
    cases (captureInto_fill s f a w).symm.trans hg
    rw [captureInto_watch]
    exact (capturePlaces_length ..).trans (h f hf).1

/-- A capture keeps F's claim with the fill (R14, R119). -/
theorem State.capture_fillClaims {s : State} (h : s.FillClaims) (a : Addr) (w : Word) : (s.capture a w).FillClaims := by
  cases hf : s.fill with
  | none => rw [State.capture_of_none hf]; exact h
  | some f =>
    rw [State.capture_of_some hf]
    refine State.settleFill_fillClaims (fun hn => by cases hn) (fun _ _ _ => ?_)
    rw [captureInto_arb]
    exact h.trans (by rw [hf]; rfl)

/-- After a capture no element is PENDING at its address (R117). -/
theorem State.capture_pendingAt (s : State) (a : Addr) (w : Word) : (s.capture a w).pendingAt a = false := by
  cases hf : s.fill with
  | none => rw [State.capture_of_none hf, State.pendingAt, hf]
  | some f =>
    rw [State.capture_of_some hf]
    refine State.settleFill_pendingAt ?_
    rw [State.pendingAt, captureInto_fill, captureInto_watch]
    exact pendingIn_capturePlaces a _ _

/-! ## The marker (R12, R110 to R113) -/

/-- What holds of F's claim around the start of a fill: it follows the fill in flight, which has a PENDING element, and the
rest of the arbiter is as given. -/
structure State.FillStands (s : State) (b : Arbiter) : Prop where
  arb : ∃ x, s.arb = { b with waitF := x }
  claims : s.FillClaims
  owed : s.FillOwed

theorem State.startFill_fillStands (s : State) (i : BankId) (period : Option Micros) :
    (s.startFill i period).FillStands s.arb := by
  unfold State.startFill
  dsimp only
  refine ⟨?_, State.settleFill_fillClaims (fun hn => by cases hn) ?_, State.settleFill_fillOwed ?_⟩
  · obtain ⟨_, _, _, _, b, h⟩ := State.settleFill_changes _
    rw [h]
    exact ⟨b, by rw [State.setBank_arb]⟩
  · rintro f ⟨⟩ hpend
    exact List.any_eq_true.2 ⟨_, hpend, by decide⟩
  · rintro f ⟨⟩
    rw [List.length_map]
    exact (congrArg (fun w => w.elements.length) (State.setBank_watch s i _)).symm

theorem State.judgeMarker_fillStands {s : State} (hc : s.FillClaims) (ho : s.FillOwed) (period : Option Micros) :
    (s.judgeMarker period).FillStands s.arb := by
  have hsame : s.FillStands s.arb := ⟨⟨s.arb.waitF, rfl⟩, hc, ho⟩
  unfold State.judgeMarker
  split
  · exact hsame
  · split
    · exact s.startFill_fillStands _ period
    · exact ⟨hsame.arb, hc, ho⟩

theorem State.markerCheck_fillStands {s : State} (hc : s.FillClaims) (ho : s.FillOwed) (a : Addr) :
    (s.markerCheck a).FillStands s.arb := by
  unfold State.markerCheck State.marker
  dsimp only
  split
  · split
    · obtain ⟨_, h⟩ := s.enterStall_changes
      rw [h]
      refine State.judgeMarker_fillStands ?_ ?_ _
      · exact hc
      · exact ho
    · refine State.judgeMarker_fillStands ?_ ?_ _
      · exact hc
      · exact ho
  · exact ⟨⟨s.arb.waitF, rfl⟩, hc, ho⟩

/-! ## The queue (R75, R76, R80) -/

/-- The head lookup makes no operation ACTIVE (R76). -/
theorem settleOps_waiting {regions : List Region} {ops : List Operation} (h : ∀ o ∈ ops, o.active = false)
    (c : Option Completion) : ∀ o ∈ (settleOps regions ops c).1, o.active = false := by
  induction ops generalizing c with
  | nil => exact h
  | cons o rest ih =>
    unfold settleOps
    split
    · exact h
    · split
      · exact ih (fun x hx => h x (List.mem_cons_of_mem _ hx)) _
      · intro x hx
        rcases List.mem_cons.1 hx with rfl | hx
        · exact h o List.mem_cons_self
        · exact h x (List.mem_cons_of_mem _ hx)

/-- A head that has been looked up stays where it is (R76). -/
theorem settleOps_of_looked_up {regions : List Region} {o : Operation} {rest : List Operation} {c : Option Completion}
    (h : o.cls ≠ none) : settleOps regions (o :: rest) c = (o :: rest, c) := by
  unfold settleOps
  split
  · rfl
  · exact absurd ‹_› h

/-- With every operation WAITING, Q claims for the head after its lookup (R14, R76). -/
theorem State.settleHead_headClaims {s : State} (h : ∀ o ∈ s.ops, o.active = false) : s.settleHead.HeadClaims :=
  ⟨rfl, fun o _ ho => settleOps_waiting h s.completion o (ho ▸ List.mem_cons_self)⟩

/-- The operations behind the head are WAITING (R74). -/
theorem State.waiting_behind {s : State} (h : s.queueOk = true) {o : Operation} {rest : List Operation}
    (ho : s.ops = o :: rest) : o.cls ≠ none ∧ ∀ x ∈ rest, x.active = false := by
  simp only [State.queueOk, ho, Bool.and_eq_true, List.all_eq_true, Operation.behind] at h
  obtain ⟨-, ⟨⟨-, hcls⟩, -⟩, hrest⟩ := h
  refine ⟨fun hn => by simp [hn] at hcls, fun x hx => ?_⟩
  obtain ⟨⟨⟨-, hact⟩, -⟩, -⟩ := hrest x hx
  simpa using hact

end Sys2Proof.Machine
end

section
/-! Every step keeps the access path in order: the completions at memory, the requests that queue operations, and the
step. -/

namespace Sys2Proof.Machine

/-! ## The end of a grant -/

/-- The holder of the grant does not wait beside it: C (R14). -/
theorem State.PathOk.waitC_of_grant_c {s : State} (h : s.PathOk) {stage : GrantStage}
    (hg : s.arb.grant = some ⟨.c, stage⟩) : s.arb.waitC = false := by
  obtain ⟨-, -, hport, -⟩ := h
  exact ((State.portOk_iff_of_grant hg).1 hport).1

/-- The claims of those who do not hold the grant (R14). -/
theorem State.PathOk.controllerClaims {s : State} (h : s.PathOk) {holder : Claimant} {stage : GrantStage}
    (hg : s.arb.grant = some ⟨holder, stage⟩) (hne : holder ≠ .c) : s.ControllerClaims := by
  obtain ⟨-, -, hport, -⟩ := h
  exact (State.portOk_iff ((Arbiter.holds_of_grant hg .c).trans (decide_eq_false hne))).1 hport

theorem State.PathOk.headClaims {s : State} (h : s.PathOk) {holder : Claimant} {stage : GrantStage}
    (hg : s.arb.grant = some ⟨holder, stage⟩) (hne : holder ≠ .q) : s.HeadClaims := by
  obtain ⟨-, -, -, hhead, -⟩ := h
  exact (State.headOk_iff ((Arbiter.holds_of_grant hg .q).trans (decide_eq_false hne))).1 hhead

theorem State.PathOk.fillClaims {s : State} (h : s.PathOk) {holder : Claimant} {stage : GrantStage}
    (hg : s.arb.grant = some ⟨holder, stage⟩) (hne : holder ≠ .f) : s.FillClaims := by
  obtain ⟨-, -, -, -, hfill, -⟩ := h
  exact (State.fillClaimOk_iff ((Arbiter.holds_of_grant hg .f).trans (decide_eq_false hne))).1 hfill

theorem State.PathOk.reservation_of_grant {s : State} (h : s.PathOk) {g : Grant} (hg : s.arb.grant = some g) :
    s.arb.reservation = none := by
  obtain ⟨-, -, -, -, -, -, hres, -⟩ := h
  exact hres (by simp [hg])

/-- The end of C's grant with the access out of the port, where at most a fill has started under it (R12, R18). -/
theorem State.PathOk.endGrant_c {s x : State} (h : s.PathOk) {stage : GrantStage} (hg : s.arb.grant = some ⟨.c, stage⟩)
    (hx : x.FillStands s.arb) (hops : x.ops = s.ops) {p : PortState} (hp : p.resting = true) :
    ({ x.endGrant with port := p } : State).Unheld := by
  have hw := h.waitC_of_grant_c hg
  obtain ⟨hQ, hact⟩ := h.headClaims hg (by decide)
  obtain ⟨hcount, -⟩ := h
  obtain ⟨b, hb⟩ := hx.arb
  refine ⟨?_, rfl, rfl, ⟨?_, fun acc hacc => absurd hacc (PortState.not_active_of_resting hp acc)⟩, hx.claims, ?_, ?_⟩
  · show x.arb.count ≤ 4
    rw [hb]; exact hcount
  · show x.arb.waitC = true ↔ _
    rw [hb]
    exact iff_of_false (by simp [hw]) (fun ⟨acc, hacc⟩ => PortState.not_active_of_resting hp acc hacc)
  · show x.arb.waitQ = headWaits x.ops
    rw [hb, hops]; exact hQ
  · show ∀ o rest, x.ops = o :: rest → _
    rw [hops]; exact hact

/-- The end of a controller access, from the state its write has left (R6, R10, R17). -/
theorem State.PathOk.endAccess {s x : State} (h : s.PathOk) {stage : GrantStage} {acc : Access}
    (hg : s.arb.grant = some ⟨.c, stage⟩) (hp : s.port = .active acc) (hx : x.FillStands s.arb) (hops : x.ops = s.ops)
    (hport : x.port = s.port) (word : Option Word) : (x.endGrant.afterControllerGrant.completeAccess word).PathOk := by
  obtain ⟨b, hb⟩ := hx.arb
  refine State.completeAccess_pathOk (s := x.endGrant) (acc := acc) (hport.trans hp) ?_ ?_ hx.owed
    (fun p hr => h.endGrant_c hg hx hops hr) word
  · show x.arb.waitC = false
    rw [hb]; exact h.waitC_of_grant_c hg
  · show x.arb.reservation = none
    rw [hb]; exact h.reservation_of_grant hg

theorem State.PathOk.controllerReadDataReturn {s t : State} (h : s.PathOk) (hfill : s.FillOwed)
    (he : execControllerReadDataReturn s = .next t) : t.PathOk := by
  unfold execControllerReadDataReturn at he
  split at he
  · rename_i a acc hg hm hp
    cases he
    have hF := h.fillClaims hg (by decide)
    exact h.endAccess hg hp ⟨⟨s.arb.waitF, rfl⟩, hF, hfill⟩ rfl rfl _
  · cases he
    exact h

theorem State.PathOk.controllerWriteReachesMemory {s t : State} (h : s.PathOk) (hfill : s.FillOwed)
    (he : execControllerWriteReachesMemory s = .next t) : t.PathOk := by
  unfold execControllerWriteReachesMemory at he
  split at he
  · rename_i a d lanes acc hg hm hp
    cases he
    have hF := h.fillClaims hg (by decide)
    let u : State := { s with mem := s.mem.writeWord a d lanes }
    obtain ⟨_, _, _, _, _, _, _, _, _, hch⟩ := u.markerCheck_changes acc.addr
    exact h.endAccess hg hp (State.markerCheck_fillStands (s := u) hF hfill acc.addr) (by rw [hch]) (by rw [hch]) none
  · cases he
    exact h

theorem State.PathOk.reservationExpiry {s t : State} (h : s.PathOk) (hfill : s.FillOwed)
    (he : execReservationExpiry s = .next t) : t.PathOk := by
  unfold execReservationExpiry at he
  split at he
  · rename_i n hr
    cases he
    exact (State.unheld_of_pathOk h (h.grant_of_reserved (by simp [hr]))).endReservation.decideGrant_pathOk rfl hfill
  · cases he
    exact h

/-! ## The reads of pairs and of fills -/

/-- The write behind a capture read serves C's access as the capture read did (R11). -/
theorem State.portOk_write_of_captureRead {s t : State} {a : Addr} {d : Word} {lanes : Lanes} (h : s.portOk = true)
    (hg : s.arb.grant = some ⟨.c, .captureRead d lanes⟩) (hm : s.mport = .reading a) (hport : t.port = s.port)
    (hwait : t.arb.waitC = s.arb.waitC) (htg : t.arb.grant = some ⟨.c, .write⟩) (htm : t.mport = .writing a d lanes) :
    t.portOk = true := by
  obtain ⟨hw, acc, hp, hf, hd, ha, hfits⟩ := (State.portOk_iff_of_grant hg).1 h
  refine (State.portOk_iff_of_grant htg).2 ⟨hwait.trans hw, acc, hport.trans hp, hf, hd, ?_, ?_⟩
  · rw [htm]; rw [hm] at ha; exact ha
  · rw [htm]; exact hfits

/-- The write of a pair serves the head of the queue as its read did (R11, R79). -/
theorem State.headOk_write_of_pair {s t : State} {holder : Claimant} {stage : GrantStage} {a : Addr} {d : Word}
    {lanes : Lanes} (h : s.headOk = true) (hg : s.arb.grant = some ⟨holder, stage⟩) (hm : s.mport = .reading a)
    (hops : t.ops = s.ops) (hwait : t.arb.waitQ = s.arb.waitQ) (htg : t.arb.grant = some ⟨holder, .write⟩)
    (htm : t.mport = .writing a d lanes)
    (hkind : ∀ o rest, s.ops = o :: rest → o.kind.fits stage = true → o.kind.fits .write = true) : t.headOk = true := by
  by_cases hq : holder = .q
  · subst hq
    obtain ⟨hw, o, rest, ho, hact, ha, hfits⟩ := (State.headOk_iff_of_grant hg).1 h
    refine (State.headOk_iff_of_grant htg).2 ⟨hwait.trans hw, o, rest, hops.trans ho, hact, ?_, hkind o rest ho hfits⟩
    rw [htm]; rw [hm] at ha; exact ha
  · have hs := (State.headOk_iff ((Arbiter.holds_of_grant hg .q).trans (decide_eq_false hq))).1 h
    refine (State.headOk_iff ((Arbiter.holds_of_grant htg .q).trans (decide_eq_false hq))).2 ?_
    unfold State.HeadClaims
    rw [hops, hwait]
    exact hs

/-- The read of a pair returns: its word is captured and the write stands at memory under the same grant (R11, R79, R117). -/
theorem State.PathOk.startWrite {s : State} (h : s.PathOk) {holder : Claimant} {stage : GrantStage} {a : Addr} {d : Word}
    {lanes : Lanes} (hg : s.arb.grant = some ⟨holder, stage⟩) (hm : s.mport = .reading a) (hf : holder ≠ .f)
    (hc : holder = .c → stage = .captureRead d lanes)
    (hkind : ∀ o rest, s.ops = o :: rest → o.kind.fits stage = true → o.kind.fits .write = true) (w : Word) :
    ({ s.capture a w with arb := { (s.capture a w).arb with grant := some ⟨holder, .write⟩ },
                          mport := .writing a d lanes } : State).PathOk := by
  have hres := h.reservation_of_grant hg
  have hF := State.capture_fillClaims (h.fillClaims hg hf) a w
  have hC := h.controllerClaims hg
  obtain ⟨hcount, -, hport, hhead, -⟩ := h
  have hpend := s.capture_pendingAt a w
  obtain ⟨_, _, _, z, b, hch⟩ := s.capture_changes a w
  rw [hch] at hF hpend ⊢
  refine ⟨hcount, rfl, ?_, State.headOk_write_of_pair hhead hg hm rfl rfl rfl rfl hkind,
    (State.fillClaimOk_iff ((Arbiter.holds_of_grant rfl .f).trans (decide_eq_false hf))).2 hF, congrArg not hpend,
    fun _ => hres, fun e => by cases e⟩
  by_cases hcc : holder = .c
  · subst hcc
    exact State.portOk_write_of_captureRead hport (hc rfl ▸ hg) hm rfl rfl rfl rfl
  · exact (State.portOk_iff ((Arbiter.holds_of_grant rfl .c).trans (decide_eq_false hcc))).2 (hC hcc)

theorem State.PathOk.captureReadReturn {s t : State} (h : s.PathOk) (he : execCaptureReadReturn s = .next t) :
    t.PathOk := by
  unfold execCaptureReadReturn at he
  split at he
  · rename_i holder d lanes a hg hm
    cases he
    have hf : holder ≠ .f := by
      rintro rfl
      obtain ⟨-, -, -, -, hfill, -⟩ := h
      cases ((State.fillClaimOk_iff_of_grant hg).1 hfill).2
    refine h.startWrite hg hm hf (fun _ => rfl) (fun o _ _ hfits => ?_) _
    cases hk : o.kind with
    | write w => rfl
    | read i => rw [hk] at hfits; cases hfits
    | modify st cl => rw [hk] at hfits; cases hfits
  · cases he
    exact h

theorem State.PathOk.modifyReadComplete {s t : State} (h : s.PathOk) (he : execModifyReadComplete s = .next t) :
    t.PathOk := by
  unfold execModifyReadComplete at he
  split at he
  · rename_i a o rest hg hm ho
    split at he
    · rename_i st cl hk
      cases he
      refine h.startWrite hg hm (by decide) (fun e => by cases e) (fun o' rest' ho' _ => ?_) _
      cases ho.symm.trans ho'
      rw [hk]; rfl
    · cases he; exact h
    · cases he; exact h
  · cases he
    exact h

/-- After a fill read F waits again while an element is PENDING, and the grant is decided anew (R14, R114). -/
theorem State.PathOk.fillReadReturn {s t : State} (h : s.PathOk) (hfill : s.FillOwed)
    (he : execFillReadReturn s = .next t) : t.PathOk := by
  unfold execFillReadReturn at he
  split at he
  · rename_i a hg hm
    cases he
    have hres := h.reservation_of_grant hg
    have hC := h.controllerClaims hg (by decide)
    have hQ := h.headClaims hg (by decide)
    obtain ⟨hcount, -⟩ := h
    have howed := hfill.capture a (s.mem.readWord a)
    obtain ⟨_, _, _, z, b, hch⟩ := s.capture_changes a (s.mem.readWord a)
    rw [hch] at howed ⊢
    exact State.Unheld.decideGrant_pathOk ⟨hcount, rfl, rfl, hC, howed.lowestPending_isSome, hQ⟩ hres howed
  · cases he
    exact h

end Sys2Proof.Machine
end

section
/-! The Operation Queue and the fill as the requests and a break change them, and the step. -/

namespace Sys2Proof.Machine

/-! ## A new queue -/

/-- Where Q holds no grant, every operation is WAITING (R74). -/
theorem State.PathOk.all_waiting {s : State} (h : s.PathOk) (hq : s.queueOk = true) (hno : s.arb.holds .q = false) :
    ∀ o ∈ s.ops, o.active = false := by
  obtain ⟨-, -, -, hhead, -⟩ := h
  obtain ⟨-, hact⟩ := (State.headOk_iff hno).1 hhead
  cases ho : s.ops with
  | nil => intro o ho; cases ho
  | cons o rest =>
    intro x hx
    rcases List.mem_cons.1 hx with rfl | hx
    · exact hact _ _ ho
    · exact (State.waiting_behind hq ho).2 x hx

/-- At a port nobody holds, a queue of WAITING operations, its head looked up, makes Q's claim (R14, R76). -/
theorem State.Unheld.settleHead {s : State} (h : s.Unheld) {ops : List Operation} (hops : ∀ o ∈ ops, o.active = false)
    (c : Option Completion) : ({ s with ops := ops, completion := c } : State).settleHead.Unheld :=
  ⟨h.count, h.grant, h.mport, h.controller, h.fill,
    State.settleHead_headClaims (s := { s with ops := ops, completion := c }) hops⟩

/-- At a port that another claimant holds, a queue of WAITING operations makes Q's claim. -/
theorem State.PathOk.settleHead_of_held {s : State} (h : s.PathOk) (hno : s.arb.holds .q = false)
    (hg : s.arb.grant ≠ none) {ops : List Operation} (hops : ∀ o ∈ ops, o.active = false) (c : Option Completion) :
    ({ s with ops := ops, completion := c } : State).settleHead.PathOk := by
  obtain ⟨hcount, hm, hport, -, hfill, hwrite, hres, -⟩ := h
  refine ⟨hcount, hm, hport, ?_, hfill, hwrite, hres,
    fun hfree => absurd hfree (by simp [Arbiter.free, hg, State.settleHead])⟩
  exact (State.headOk_iff (s := ({ s with ops := ops, completion := c } : State).settleHead) hno).2
    (State.settleHead_headClaims (s := { s with ops := ops, completion := c }) hops)

/-- Where Q holds the grant, a queue with the same operation ACTIVE at its head keeps the access path in order. -/
theorem State.PathOk.replaceQueue_of_holds {s : State} (h : s.PathOk) {stage : GrantStage}
    (hg : s.arb.grant = some ⟨.q, stage⟩) {o : Operation} {rest : List Operation} (ho : s.ops = o :: rest)
    {o' : Operation} (rest' : List Operation) (hk : o'.kind = o.kind) (ha : o'.addr = o.addr)
    (hact : o'.active = o.active) (c : Option Completion) :
    ({ s with ops := o' :: rest', completion := c,
              arb := { s.arb with waitQ := headWaits (o' :: rest') } } : State).PathOk := by
  obtain ⟨hcount, hm, hport, hhead, hfill, hwrite, hres, -⟩ := h
  obtain ⟨-, o₁, rest₁, ho₁, hact₁, haddr, hfits⟩ := (State.headOk_iff_of_grant hg).1 hhead
  cases ho.symm.trans ho₁
  refine ⟨hcount, hm, hport, ?_, hfill, hwrite, hres, fun hfree => absurd hfree (by simp [Arbiter.free, hg])⟩
  let t : State := { s with ops := o' :: rest', completion := c, arb := { s.arb with waitQ := headWaits (o' :: rest') } }
  refine (State.headOk_iff_of_grant (s := t) hg).2 ⟨?_, o', rest', rfl, hact.trans hact₁, ha ▸ haddr, hk ▸ hfits⟩
  show headWaits (o' :: rest') = false
  rw [headWaits, hact, hact₁]; rfl

/-- That queue as the head lookup leaves it: a head that has been looked up stays. -/
theorem State.PathOk.settleHead_of_holds {s : State} (h : s.PathOk) {stage : GrantStage}
    (hg : s.arb.grant = some ⟨.q, stage⟩) {o : Operation} {rest : List Operation} (ho : s.ops = o :: rest)
    {o' : Operation} (rest' : List Operation) (hk : o'.kind = o.kind) (ha : o'.addr = o.addr)
    (hact : o'.active = o.active) (hcls : o'.cls ≠ none) (c : Option Completion) :
    ({ s with ops := o' :: rest', completion := c } : State).settleHead.PathOk := by
  unfold State.settleHead
  dsimp only
  rw [settleOps_of_looked_up hcls]
  exact h.replaceQueue_of_holds hg ho rest' hk ha hact c

/-- The grant of a claimant that holds it. -/
theorem Arbiter.grant_of_holds {b : Arbiter} {x : Claimant} (h : b.holds x = true) :
    ∃ stage, b.grant = some ⟨x, stage⟩ := by
  unfold Arbiter.holds at h
  cases hg : b.grant with
  | none => simp [hg] at h
  | some g =>
    obtain ⟨holder, stage⟩ := g
    have hx : holder = x := by simpa [hg] using h
    exact ⟨stage, by rw [hx]⟩

/-- Where Q holds the grant the head of the queue is ACTIVE (R76). -/
theorem State.PathOk.head_of_holds {s : State} (h : s.PathOk) (hold : s.arb.holds .q = true) :
    ∃ stage o rest, s.arb.grant = some ⟨.q, stage⟩ ∧ s.ops = o :: rest ∧ o.active = true := by
  obtain ⟨-, -, -, hhead, -⟩ := h
  obtain ⟨stage, hg⟩ := Arbiter.grant_of_holds hold
  obtain ⟨-, o, rest, ho, hact, -, -⟩ := (State.headOk_iff_of_grant hg).1 hhead
  exact ⟨stage, o, rest, hg, ho, hact⟩

/-- Operations join the tail (R75): the claim Q makes for a new head is decided at a free port. -/
theorem State.PathOk.enqueue {s : State} (h : s.PathOk) (hq : s.queueOk = true) (hfill : s.FillOwed)
    {new : List Operation} (hnew : ∀ o ∈ new, o.active = false) : (s.enqueue new).PathOk := by
  refine State.SamePath.pathOk (State.examineRecord_samePath _) ?_
  unfold State.claimArrives
  cases hold : s.arb.holds .q with
  | true =>
    obtain ⟨stage, o, rest, hg, ho, hact⟩ := h.head_of_holds hold
    rw [if_neg (by simp [Arbiter.free, hg])]
    rw [ho]
    exact h.settleHead_of_holds hg ho (rest ++ new) rfl rfl rfl (State.waiting_behind hq ho).1 s.completion
  | false =>
    have hall : ∀ o ∈ s.ops ++ new, o.active = false := fun o ho =>
      (List.mem_append.1 ho).elim (h.all_waiting hq hold o) (hnew o)
    by_cases hg : s.arb.grant = none
    · have hu := (State.unheld_of_pathOk h hg).settleHead hall s.completion
      split
      · rename_i hfree
        simp only [Arbiter.free, Bool.and_eq_true, Option.isNone_iff_eq_none] at hfree
        obtain ⟨⟨-, hr⟩, -⟩ := hfree
        exact hu.decideGrant_pathOk hr hfill
      · rename_i hbusy
        refine hu.pathOk fun hr => absurd ?_ hbusy
        have hr : s.arb.reservation = none := hr
        simp [Arbiter.free, hg, hr, h.none_waits hg hr]
    · rw [if_neg (by simp [Arbiter.free, hg])]
      exact h.settleHead_of_held hold hg hall s.completion

/-- The head retires (R80): the next one is looked up and the grant is decided anew. -/
theorem State.PathOk.retireHead {s : State} (h : s.PathOk) (hq : s.queueOk = true) (hfill : s.FillOwed)
    {stage : GrantStage} (hg : s.arb.grant = some ⟨.q, stage⟩) (w : Word) : (s.retireHead w).PathOk := by
  have hres := h.reservation_of_grant hg
  unfold State.retireHead
  split
  · exact h
  · rename_i o rest ho
    refine State.SamePath.pathOk (State.examineRecord_samePath _) ?_
    have hC := h.controllerClaims hg (by decide)
    have hF := h.fillClaims hg (by decide)
    obtain ⟨hcount, -⟩ := h
    exact State.Unheld.decideGrant_pathOk
      ⟨hcount, rfl, rfl, hC, hF, State.settleHead_headClaims (State.waiting_behind hq ho).2⟩ hres hfill

/-- At a free and unreserved port the queue is empty: its head would wait (R14, R15). -/
theorem State.PathOk.queue_nil {s : State} (h : s.PathOk) (hg : s.arb.grant = none) (hr : s.arb.reservation = none) :
    s.ops = [] := by
  obtain ⟨hQ, hact⟩ := (State.unheld_of_pathOk h hg).head
  have hw : s.arb.waitQ = false := by
    have hnone := h.none_waits hg hr
    simp only [Arbiter.anyWaits, Arbiter.engineWaits, Bool.or_eq_false_iff] at hnone
    obtain ⟨-, -, hw⟩ := hnone
    exact hw
  cases ho : s.ops with
  | nil => rfl
  | cons o rest =>
    rw [hw, ho, headWaits, hact o rest ho] at hQ
    cases hQ

/-- A queue of WAITING operations in the place of one of which Q holds no grant, none in the place of an empty one. -/
theorem State.PathOk.replaceQueue {s : State} (h : s.PathOk) (hno : s.arb.holds .q = false) {ops : List Operation}
    (hops : ∀ o ∈ ops, o.active = false) (hnil : s.ops = [] → ops = []) (c : Option Completion) :
    ({ s with ops := ops, completion := c } : State).settleHead.PathOk := by
  by_cases hg : s.arb.grant = none
  · refine ((State.unheld_of_pathOk h hg).settleHead hops c).pathOk fun hr => ?_
    have hr : s.arb.reservation = none := hr
    have hnone := h.none_waits hg hr
    simp only [Arbiter.anyWaits, Arbiter.engineWaits, Bool.or_eq_false_iff] at hnone
    simp [hnil (h.queue_nil hg hr), State.settleHead, settleOps, headWaits, Arbiter.anyWaits, Arbiter.engineWaits, hnone]
  · exact h.settleHead_of_held hno hg hops c

/-- A PEEK or SYNC is abandoned (R86): the WAITING reads of the PEEK leave the queue and Q's claim follows the new head. -/
theorem State.PathOk.abandonRecord {s : State} (h : s.PathOk) (hq : s.queueOk = true) : s.abandonRecord.PathOk := by
  unfold State.abandonRecord
  split
  · exact h
  · exact State.SamePath.pathOk (t := { s with completion := none }) rfl h
  · dsimp only
    have hmark (o : Operation) :
        ∃ b, (if o.origin = .peek then { o with dropped := true } else o) = { o with dropped := b } := by
      split
      · exact ⟨true, rfl⟩
      · exact ⟨o.dropped, rfl⟩
    cases hold : s.arb.holds .q with
    | true =>
      obtain ⟨stage, o, rest, hg, ho, hact⟩ := h.head_of_holds hold
      obtain ⟨b, hb⟩ := hmark o
      rw [ho, List.filter_cons_of_pos (by simp [hact]), List.map_cons, hb]
      exact h.settleHead_of_holds hg ho (o' := { o with dropped := b }) _ rfl rfl rfl (State.waiting_behind hq ho).1 none
    | false =>
      refine h.replaceQueue hold (fun x hx => ?_) (fun hnil => by rw [hnil]; rfl) none
      obtain ⟨o, ho, rfl⟩ := List.mem_map.1 hx
      obtain ⟨b, hb⟩ := hmark o
      rw [hb]
      exact h.all_waiting hq hold o (List.mem_filter.1 ho).1

/-! ## SESSION CLEAR and the Watch List -/

/-- The fill in flight is abandoned with the Watch List (R72, R129). -/
theorem State.PathOk.dropFill {s : State} (h : s.PathOk) (w : Watch) :
    ({ s with fill := none, watch := w, arb := { s.arb with waitF := false } } : State).PathOk := by
  obtain ⟨hcount, hm, hport, hhead, hfill, -, hres, hfree⟩ := h
  refine ⟨hcount, hm, hport, hhead, ?_, ?_, hres, fun hf => ?_⟩
  · simp only [State.fillClaimOk, Bool.and_eq_true] at hfill ⊢
    exact ⟨rfl, hfill.2⟩
  · unfold State.writeCaptured
    dsimp only
    split <;> rfl
  · have hnone := hfree hf
    simp only [Arbiter.anyWaits, Arbiter.engineWaits, Bool.or_eq_false_iff] at hnone ⊢
    obtain ⟨hwc, -, hwq⟩ := hnone
    exact ⟨hwc, trivial, hwq⟩

/-- SESSION CLEAR leaves the ACTIVE operation alone, which its grant serves, and no fill (R72, R87, R129). -/
theorem State.PathOk.clearSession {s : State} (h : s.PathOk) (hq : s.queueOk = true) : s.clearSession.PathOk := by
  let r : State := { s with
    ops := s.ops.filter Operation.active, arb := { s.arb with waitQ := headWaits (s.ops.filter Operation.active) } }
  have hr : r.PathOk := by
    cases hold : s.arb.holds .q with
    | true =>
      obtain ⟨stage, o, rest, hg, ho, hact⟩ := h.head_of_holds hold
      have hf : s.ops.filter Operation.active = o :: rest.filter Operation.active := by
        rw [ho, List.filter_cons_of_pos hact]
      simp only [r, hf]
      exact h.replaceQueue_of_holds hg ho _ rfl rfl rfl s.completion
    | false =>
      have hf : s.ops.filter Operation.active = [] :=
        List.filter_eq_nil_iff.2 fun o ho => by simp [h.all_waiting hq hold o ho]
      simp only [r, hf]
      exact h.replaceQueue hold (ops := []) (by simp) (fun _ => rfl) s.completion
  exact State.SamePath.pathOk (t := s.clearSession) rfl (hr.dropFill ⟨[], [], s.watch.generation + 1, .off⟩)

/-- Without a fill in flight the Watch List may change (R100). -/
theorem State.PathOk.setWatch {s : State} (h : s.PathOk) (hf : s.fill = none) (w : Watch) :
    ({ s with watch := w } : State).PathOk := by
  obtain ⟨hcount, hm, hport, hhead, hfill, -, hrest⟩ := h
  refine ⟨hcount, hm, hport, hhead, hfill, ?_, hrest⟩
  unfold State.writeCaptured State.pendingAt
  simp only [hf]
  split <;> rfl

/-! ## What a step starts from -/

/-- What a command needs to keep the access path in order: the relations of the path, of the queue, and of the fill in
flight, whose bank is FILLING. -/
structure State.PathReady (s : State) : Prop where
  path : s.PathOk
  queue : s.queueOk = true
  owed : s.FillOwed
  filling : ∀ f, s.fill = some f → (s.bank f.bank).state = .filling

theorem State.Coherent.pathReady {s : State} (h : s.Coherent) : s.PathReady :=
  ⟨h.path, h.queue, State.fillOwed_of_fillOk h.fill, fun f hf => by
    have hfill := h.fill
    simp only [State.fillOk, hf, Bool.and_eq_true, decide_eq_true_eq] at hfill
    obtain ⟨⟨⟨⟨hb, -⟩, -⟩, -⟩, -⟩ := hfill
    exact hb⟩

theorem State.queueOk_congr {s t : State} (h : t.ops = s.ops) : t.queueOk = s.queueOk := by
  unfold State.queueOk; rw [h]

/-- The taking of a request leaves the access path and a FILLING bank as they are (R155). -/
theorem State.PathReady.takeRequest {s : State} (h : s.PathReady) (code : Byte) : (s.takeRequest code).PathReady := by
  refine ⟨State.SamePath.pathOk (s.takeRequest_samePath code) h.path,
    (State.queueOk_congr (s.takeRequest_ops code)).trans h.queue, fun f hf => ?_, fun f hf => ?_⟩
  · rw [State.takeRequest_fill] at hf
    rw [State.takeRequest_watch]
    exact h.owed f hf
  · rw [State.takeRequest_fill] at hf
    rcases s.takeRequest_bank code f.bank with hb | ⟨hs, -⟩
    · rw [hb]; exact h.filling f hf
    · rw [h.filling f hf] at hs; cases hs

/-- Where no bank is FILLING no fill is in flight (R108). -/
theorem State.PathReady.fill_none {s : State} (h : s.PathReady) (hf : s.anyFilling = false) : s.fill = none := by
  simp only [State.anyFilling, Bool.or_eq_false_iff, decide_eq_false_iff_not] at hf
  cases hs : s.fill with
  | none => rfl
  | some f =>
    have hfill := h.filling f hs
    cases hb : f.bank <;> rw [hb] at hfill
    · exact absurd hfill hf.1
    · exact absurd hfill hf.2

/-! ## The requests that reach the access path -/

/-- What a PEEK can come to (R84, R175). -/
theorem doPeek_outcomes (params : List Byte) (u : State) :
    (∃ st, doPeek params u = u.answer st []) ∨ ∃ a n, doPeek params u = u.acceptPeek a n := by
  unfold doPeek
  split
  · exact .inl ⟨_, rfl⟩
  · split
    · exact .inl ⟨_, rfl⟩
    · split
      · exact .inl ⟨_, rfl⟩
      · exact .inr ⟨_, _, rfl⟩

/-- What a POKE can come to (R82, R176). -/
theorem doPoke_outcomes (params : List Byte) (u : State) :
    (∃ st, doPoke params u = u.answer st [])
      ∨ ∃ a ws, doPoke params u = (u.enqueue (pokeOps a ws)).answer .ok [] := by
  unfold doPoke
  split
  · exact .inl ⟨_, rfl⟩
  · dsimp only
    split
    · exact .inl ⟨_, rfl⟩
    · split
      · exact .inl ⟨_, rfl⟩
      · split
        · exact .inl ⟨_, rfl⟩
        · split
          · exact .inl ⟨_, rfl⟩
          · split
            · exact .inl ⟨_, rfl⟩
            · exact .inr ⟨_, _, rfl⟩

/-- What a FORCE can come to (R50 to R52, R178). -/
theorem doForce_outcomes (params : List Byte) (u : State) :
    (∃ st, doForce params u = u.answer st [])
      ∨ ∃ (forces : List ForceEntry) (ws : List ForceWord), doForce params u =
        (({ u with forces := forces } : State).enqueue (ws.filterMap (forceOp u.regions))).answer .ok [] := by
  unfold doForce
  split
  · exact .inl ⟨_, rfl⟩
  · dsimp only
    split
    · exact .inl ⟨_, rfl⟩
    · split
      · exact .inl ⟨_, rfl⟩
      · split
        · exact .inl ⟨_, rfl⟩
        · split
          · exact .inl ⟨_, rfl⟩
          · split
            · exact .inl ⟨_, rfl⟩
            · exact .inr ⟨_, _, rfl⟩

/-- A change of the Watch List is answered without it, or made while no bank is FILLING (R97, R100). -/
theorem State.changeWatch_outcomes (u : State) (new list : List WatchItem) :
    (∃ st, u.changeWatch new list = u.answer st [])
      ∨ u.anyFilling = false ∧ ∃ w data, u.changeWatch new list = ({ u with watch := w } : State).answer .ok data := by
  unfold State.changeWatch
  split
  · exact .inl ⟨_, rfl⟩
  · split
    · exact .inl ⟨_, rfl⟩
    · rename_i hfill
      split
      · exact .inl ⟨_, rfl⟩
      · exact .inr ⟨by simpa using hfill, _, _, rfl⟩

/-- WATCH DEFINE and WATCH APPEND come to a change of the Watch List (R98, R99). -/
theorem doWatchDefine_outcomes (params : List Byte) (u : State) :
    (∃ st, doWatchDefine params u = u.answer st [])
      ∨ ∃ new list, doWatchDefine params u = u.changeWatch new list := by
  unfold doWatchDefine
  split
  · exact .inl ⟨_, rfl⟩
  · exact .inr ⟨_, _, rfl⟩

theorem doWatchAppend_outcomes (params : List Byte) (u : State) :
    (∃ st, doWatchAppend params u = u.answer st [])
      ∨ ∃ new list, doWatchAppend params u = u.changeWatch new list := by
  unfold doWatchAppend
  split
  · exact .inl ⟨_, rfl⟩
  · exact .inl ⟨_, rfl⟩
  · exact .inr ⟨_, _, rfl⟩

theorem pokeOps_waiting (a : Addr) (ws : List Word) : ∀ o ∈ pokeOps a ws, o.active = false := by
  induction ws generalizing a with
  | nil => intro o ho; cases ho
  | cons w rest ih =>
    intro o ho
    rcases List.mem_cons.1 ho with rfl | ho
    · rfl
    · exact ih (a + 1) o ho

theorem forceOp_waiting {regions : List Region} {f : ForceWord} {o : Operation} (h : forceOp regions f = some o) :
    o.active = false := by
  unfold forceOp at h
  split at h
  · cases h; rfl
  · cases h

/-- An answer leaves the access path in order. -/
theorem State.PathOk.answer {s : State} (h : s.PathOk) (st : Status) (data : List Byte) : (s.answer st data).PathOk :=
  State.SamePath.pathOk rfl h

theorem State.PathReady.acceptPeek {s : State} (h : s.PathReady) (a : Addr) (n : Nat) : (s.acceptPeek a n).PathOk := by
  refine State.PathOk.enqueue (s := { s with completion := some (.peek (List.replicate n none)) })
    (State.SamePath.pathOk rfl h.path) h.queue h.owed ?_
  intro o ho
  obtain ⟨i, -, rfl⟩ := List.mem_map.1 ho
  rfl

theorem State.PathReady.doPeek {s : State} (h : s.PathReady) (params : List Byte) : (doPeek params s).PathOk := by
  rcases doPeek_outcomes params s with ⟨st, he⟩ | ⟨a, n, he⟩ <;> rw [he]
  · exact h.path.answer st []
  · exact h.acceptPeek a n

theorem State.PathReady.doPoke {s : State} (h : s.PathReady) (params : List Byte) : (doPoke params s).PathOk := by
  rcases doPoke_outcomes params s with ⟨st, he⟩ | ⟨a, ws, he⟩ <;> rw [he]
  · exact h.path.answer st []
  · exact (h.path.enqueue h.queue h.owed (pokeOps_waiting a ws)).answer .ok []

theorem State.PathReady.doForce {s : State} (h : s.PathReady) (params : List Byte) : (doForce params s).PathOk := by
  rcases doForce_outcomes params s with ⟨st, he⟩ | ⟨forces, ws, he⟩ <;> rw [he]
  · exact h.path.answer st []
  · refine (State.PathOk.enqueue (s := { s with forces := forces }) (State.SamePath.pathOk rfl h.path) h.queue h.owed
      fun o ho => ?_).answer .ok []
    obtain ⟨f, -, hf⟩ := List.mem_filterMap.1 ho
    exact forceOp_waiting hf

theorem State.PathReady.changeWatch {s : State} (h : s.PathReady) (new list : List WatchItem) :
    (s.changeWatch new list).PathOk := by
  rcases s.changeWatch_outcomes new list with ⟨st, he⟩ | ⟨hfill, w, data, he⟩ <;> rw [he]
  · exact h.path.answer st []
  · exact (h.path.setWatch (h.fill_none hfill) w).answer .ok data

theorem State.PathReady.doWatchDefine {s : State} (h : s.PathReady) (params : List Byte) :
    (doWatchDefine params s).PathOk := by
  rcases doWatchDefine_outcomes params s with ⟨st, he⟩ | ⟨new, list, he⟩ <;> rw [he]
  · exact h.path.answer st []
  · exact h.changeWatch new list

theorem State.PathReady.doWatchAppend {s : State} (h : s.PathReady) (params : List Byte) :
    (doWatchAppend params s).PathOk := by
  rcases doWatchAppend_outcomes params s with ⟨st, he⟩ | ⟨new, list, he⟩ <;> rw [he]
  · exact h.path.answer st []
  · exact h.changeWatch new list

theorem State.PathReady.doSessionClear {s : State} (h : s.PathReady) (params : List Byte) :
    (withoutParams (fun s => s.clearSession.answer .ok []) params s).PathOk := by
  unfold withoutParams
  split
  · exact State.SamePath.pathOk (s := s.clearSession) rfl (h.path.clearSession h.queue)
  · exact State.SamePath.pathOk rfl h.path

/-- A request whose carrying out keeps the access path in order keeps it in order from its taking. -/
theorem State.PathReady.onRequest {s t : State} (h : s.PathReady) {c : RxChar} {code : Byte}
    {carryOut : List Byte → State → State} (he : s.onRequest c code carryOut = .next t)
    (hk : ∀ (u : State) params, u.PathReady → (carryOut params u).PathOk) : t.PathOk :=
  State.onRequest_keeps State.PathOk h.path (fun params => hk _ params (h.takeRequest code)) he

/-! ## The other commands of the path -/

theorem State.PathReady.readOperationDataReturn {s t : State} (h : s.PathReady)
    (he : execReadOperationDataReturn s = .next t) : t.PathOk := by
  unfold execReadOperationDataReturn at he
  split at he
  · rename_i a o rest hg hm ho
    split at he
    · cases he; exact h.path.retireHead h.queue h.owed hg _
    · cases he; exact h.path
    · cases he; exact h.path
  · cases he; exact h.path

/-- The write of an operation has reached memory, and the operation retires (R78, R79, R80). -/
theorem State.PathReady.retireWritten {s : State} (h : s.PathReady) (m : Memory) {stage : GrantStage}
    (hg : s.arb.grant = some ⟨.q, stage⟩) : (({ s with mem := m } : State).retireHead 0).PathOk :=
  State.PathOk.retireHead (s := { s with mem := m }) h.path h.queue h.owed hg 0

theorem State.PathReady.writeOperationReachesMemory {s t : State} (h : s.PathReady)
    (he : execWriteOperationReachesMemory s = .next t) : t.PathOk := by
  unfold execWriteOperationReachesMemory at he
  split at he
  · rename_i a d lanes o rest hg hm ho
    split at he
    · cases he; exact h.retireWritten _ hg
    · cases he; exact h.path
    · cases he; exact h.path
  · cases he; exact h.path

theorem State.PathReady.modifyWriteReachesMemory {s t : State} (h : s.PathReady)
    (he : execModifyWriteReachesMemory s = .next t) : t.PathOk := by
  unfold execModifyWriteReachesMemory at he
  split at he
  · rename_i a d lanes o rest hg hm ho
    split at he
    · cases he; exact h.retireWritten _ hg
    · cases he; exact h.path
    · cases he; exact h.path
  · cases he; exact h.path

theorem State.PathReady.breakLine {s t : State} (h : s.PathReady) (he : execBreakLine s = .next t) : t.PathOk := by
  cases he
  split
  · let u : State := { s with rx := ⟨.hunt, true⟩ }
    have hu : u.PathOk := State.SamePath.pathOk rfl h.path
    dsimp only
    split
    · exact hu
    · exact State.SamePath.pathOk (s := u) rfl hu
    · exact State.SamePath.pathOk (State.endExchange_samePath _ _) (hu.abandonRecord h.queue)
    · exact State.SamePath.pathOk (State.endExchange_samePath u _) hu
    · exact State.SamePath.pathOk (State.endExchange_samePath u _) hu
  · exact h.path

/-- The reset values of the blocks keep the access path in order (R13, R19). -/
theorem State.resetBlocks_pathOk (s : State) : s.resetBlocks.PathOk :=
  ⟨Nat.zero_le _, rfl, rfl, rfl, rfl, rfl, fun _ => rfl, fun _ => rfl⟩

theorem State.PathReady.sysrstnFall {s t : State} (h : s.PathReady) (he : execSysrstnFall s = .next t) : t.PathOk := by
  cases he
  split
  · exact State.resetBlocks_pathOk _
  · exact h.path

theorem State.PathReady.sysrstnRise {s t : State} (h : s.PathReady) {node : BitVec 4} {rate : BitVec 2} {space : Bool}
    (he : execSysrstnRise node rate space s = .next t) : t.PathOk := by
  cases he
  split
  · exact h.path
  · exact State.PathOk.tryTake (s := { s with sysrstn := true, strapNode := node, strapRate := rate, rx := ⟨.hunt, space⟩ })
      (State.SamePath.pathOk rfl h.path) h.owed

/-! ## The step -/

/-- Every command keeps the access path in order. -/
theorem State.PathReady.exec {s t : State} (h : s.PathReady) {i : Instr} (he : exec i s = .next t) : t.PathOk := by
  cases hi : offPath i with
  | true => exact State.SamePath.pathOk (exec_samePath_of_offPath hi he) h.path
  | false =>
    cases i with
    | accessTake p => cases he; exact h.path.moveBus h.owed p
    | cycleEnd p => cases he; exact h.path.moveBus h.owed p
    | controllerReadDataReturn => exact h.path.controllerReadDataReturn h.owed he
    | reservationExpiry => exact h.path.reservationExpiry h.owed he
    | controllerWriteReachesMemory => exact h.path.controllerWriteReachesMemory h.owed he
    | captureReadReturn => exact h.path.captureReadReturn he
    | fillReadReturn => exact h.path.fillReadReturn h.owed he
    | readOperationDataReturn => exact h.readOperationDataReturn he
    | writeOperationReachesMemory => exact h.writeOperationReachesMemory he
    | modifyReadComplete => exact h.path.modifyReadComplete he
    | modifyWriteReachesMemory => exact h.modifyWriteReachesMemory he
    | sysrstnFall => exact h.sysrstnFall he
    | sysrstnRise node rate space => exact h.sysrstnRise he
    | breakLine => exact h.breakLine he
    | sessionClear c => exact h.onRequest he fun _ params hu => hu.doSessionClear params
    | peek c => exact h.onRequest he fun _ params hu => hu.doPeek params
    | poke c => exact h.onRequest he fun _ params hu => hu.doPoke params
    | force c => exact h.onRequest he fun _ params hu => hu.doForce params
    | watchDefine c => exact h.onRequest he fun _ params hu => hu.doWatchDefine params
    | watchAppend c => exact h.onRequest he fun _ params hu => hu.doWatchAppend params
    | _ => cases hi

/-- Settles O57: an empty queue idles, and the front command keeps the access path in order. -/
theorem pathKept : Obligations.PathKept := by
  intro s t hs h
  unfold step at h
  split at h
  · cases h; exact hs.path
  · rename_i i rest _
    exact State.PathReady.exec (s := { s with pending := rest })
      ⟨hs.pathReady.path, hs.pathReady.queue, hs.pathReady.owed, hs.pathReady.filling⟩ h

end Sys2Proof.Machine
end

section
/-! Memory changes only by a write under a grant (R5, R10, R18, R19). -/

namespace Sys2Proof.Machine

/-! ## The commands that leave memory -/

theorem State.decideGrant_mem (s : State) : s.decideGrant.mem = s.mem := by
  obtain ⟨_, _, _, h⟩ := s.decideGrant_changes; rw [h]

theorem State.capture_mem (s : State) (a : Addr) (w : Word) : (s.capture a w).mem = s.mem := by
  obtain ⟨_, _, _, _, _, h⟩ := s.capture_changes a w; rw [h]

theorem State.retireHead_mem (s : State) (w : Word) : (s.retireHead w).mem = s.mem := by
  obtain ⟨_, _, _, _, _, _, h⟩ := s.retireHead_changes w; rw [h]

theorem State.enqueue_mem (s : State) (new : List Operation) : (s.enqueue new).mem = s.mem := by
  obtain ⟨_, _, _, _, _, _, h⟩ := s.enqueue_changes new; rw [h]

theorem State.moveBus_mem (s : State) (p : BusPins) : (s.moveBus p).mem = s.mem := by
  obtain ⟨_, _, _, _, _, _, h⟩ := s.moveBus_changes p; rw [h]

theorem State.tryTake_mem (s : State) : s.tryTake.mem = s.mem := by
  obtain ⟨_, _, _, _, _, _, h⟩ := s.tryTake_changes; rw [h]

theorem State.markerCheck_mem (s : State) (a : Addr) : (s.markerCheck a).mem = s.mem := by
  obtain ⟨_, _, _, _, _, _, _, _, _, h⟩ := s.markerCheck_changes a; rw [h]

/-- The end of a controller grant and the completion of its access write nothing. -/
theorem State.endAccess_mem (s : State) (word : Option Word) :
    (s.endGrant.afterControllerGrant.completeAccess word).mem = s.mem := by
  obtain ⟨_, _, _, _, _, _, h⟩ := s.endGrant.afterControllerGrant.completeAccess_changes word
  obtain ⟨_, _, _, h'⟩ := s.endGrant.afterControllerGrant_changes
  rw [h, h']; rfl

theorem doPeek_mem (params : List Byte) (u : State) : (doPeek params u).mem = u.mem := by
  rcases doPeek_outcomes params u with ⟨st, he⟩ | ⟨a, n, he⟩ <;> rw [he]
  · rfl
  · exact State.enqueue_mem _ _

theorem doPoke_mem (params : List Byte) (u : State) : (doPoke params u).mem = u.mem := by
  rcases doPoke_outcomes params u with ⟨st, he⟩ | ⟨a, ws, he⟩ <;> rw [he]
  · rfl
  · exact u.enqueue_mem _

theorem doForce_mem (params : List Byte) (u : State) : (doForce params u).mem = u.mem := by
  rcases doForce_outcomes params u with ⟨st, he⟩ | ⟨forces, ws, he⟩ <;> rw [he]
  · rfl
  · exact State.enqueue_mem _ _

theorem State.changeWatch_mem (u : State) (new list : List WatchItem) : (u.changeWatch new list).mem = u.mem := by
  rcases u.changeWatch_outcomes new list with ⟨st, he⟩ | ⟨-, w, data, he⟩ <;> rw [he] <;> rfl

theorem doWatchDefine_mem (params : List Byte) (u : State) : (doWatchDefine params u).mem = u.mem := by
  rcases doWatchDefine_outcomes params u with ⟨st, he⟩ | ⟨new, list, he⟩ <;> rw [he]
  · rfl
  · exact u.changeWatch_mem new list

theorem doWatchAppend_mem (params : List Byte) (u : State) : (doWatchAppend params u).mem = u.mem := by
  rcases doWatchAppend_outcomes params u with ⟨st, he⟩ | ⟨new, list, he⟩ <;> rw [he]
  · rfl
  · exact u.changeWatch_mem new list

theorem doSessionClear_mem (params : List Byte) (u : State) :
    (withoutParams (fun s => s.clearSession.answer .ok []) params u).mem = u.mem := by
  unfold withoutParams
  split <;> rfl

theorem State.onRequest_mem {s t : State} {c : RxChar} {code : Byte} {carryOut : List Byte → State → State}
    (he : s.onRequest c code carryOut = .next t) (hk : ∀ params u, (carryOut params u).mem = u.mem) : t.mem = s.mem :=
  State.onRequest_keeps (fun u => u.mem = s.mem) rfl (fun params => (hk params _).trans (s.takeRequest_mem code)) he

theorem execReservationExpiry_mem {s t : State} (he : execReservationExpiry s = .next t) : t.mem = s.mem := by
  unfold execReservationExpiry at he
  split at he <;> cases he
  · exact State.decideGrant_mem _
  · rfl

theorem execControllerReadDataReturn_mem {s t : State} (he : execControllerReadDataReturn s = .next t) :
    t.mem = s.mem := by
  unfold execControllerReadDataReturn at he
  split at he <;> cases he
  · exact s.endAccess_mem _
  · rfl

theorem execCaptureReadReturn_mem {s t : State} (he : execCaptureReadReturn s = .next t) : t.mem = s.mem := by
  unfold execCaptureReadReturn at he
  split at he <;> cases he
  · exact s.capture_mem _ _
  · rfl

theorem execFillReadReturn_mem {s t : State} (he : execFillReadReturn s = .next t) : t.mem = s.mem := by
  unfold execFillReadReturn at he
  split at he <;> cases he
  · exact (State.decideGrant_mem _).trans (s.capture_mem _ _)
  · rfl

theorem execReadOperationDataReturn_mem {s t : State} (he : execReadOperationDataReturn s = .next t) :
    t.mem = s.mem := by
  unfold execReadOperationDataReturn at he
  split at he
  · split at he <;> cases he
    · exact s.retireHead_mem _
    · rfl
    · rfl
  · cases he; rfl

theorem execModifyReadComplete_mem {s t : State} (he : execModifyReadComplete s = .next t) : t.mem = s.mem := by
  unfold execModifyReadComplete at he
  split at he
  · split at he <;> cases he
    · exact s.capture_mem _ _
    · rfl
    · rfl
  · cases he; rfl

theorem execSysrstnRise_mem {s t : State} {node : BitVec 4} {rate : BitVec 2} {space : Bool}
    (he : execSysrstnRise node rate space s = .next t) : t.mem = s.mem := by
  cases he
  split
  · rfl
  · exact State.tryTake_mem _

theorem execBreakLine_mem {s t : State} (he : execBreakLine s = .next t) : t.mem = s.mem := by
  cases he
  split
  · have hrec (u : State) : u.abandonRecord.mem = u.mem := by
      obtain ⟨_, _, _, h⟩ := u.abandonRecord_changes; rw [h]
    dsimp only
    split
    · rfl
    · rfl
    · exact (State.endExchange_samePath _ _).mem.trans (hrec _)
    · exact (State.endExchange_samePath _ _).mem
    · exact (State.endExchange_samePath _ _).mem
  · rfl

/-- The commands under which a write can reach memory (R10, R19, R78, R79). -/
def writers : List Instr :=
  [.controllerWriteReachesMemory, .writeOperationReachesMemory, .modifyWriteReachesMemory, .sysrstnFall]

/-- Every other command leaves memory as it is. -/
theorem exec_mem_of_not_writer {i : Instr} {s t : State} (hw : i ∉ writers) (he : exec i s = .next t) :
    t.mem = s.mem := by
  cases hi : offPath i with
  | true => exact (exec_samePath_of_offPath hi he).mem
  | false =>
    cases i with
    | accessTake p => cases he; exact s.moveBus_mem p
    | cycleEnd p => cases he; exact s.moveBus_mem p
    | controllerReadDataReturn => exact execControllerReadDataReturn_mem he
    | reservationExpiry => exact execReservationExpiry_mem he
    | captureReadReturn => exact execCaptureReadReturn_mem he
    | fillReadReturn => exact execFillReadReturn_mem he
    | readOperationDataReturn => exact execReadOperationDataReturn_mem he
    | modifyReadComplete => exact execModifyReadComplete_mem he
    | sysrstnRise node rate space => exact execSysrstnRise_mem he
    | breakLine => exact execBreakLine_mem he
    | sessionClear c => exact State.onRequest_mem he doSessionClear_mem
    | peek c => exact State.onRequest_mem he doPeek_mem
    | poke c => exact State.onRequest_mem he doPoke_mem
    | force c => exact State.onRequest_mem he doForce_mem
    | watchDefine c => exact State.onRequest_mem he doWatchDefine_mem
    | watchAppend c => exact State.onRequest_mem he doWatchAppend_mem
    | controllerWriteReachesMemory => exact absurd (by decide) hw
    | writeOperationReachesMemory => exact absurd (by decide) hw
    | modifyWriteReachesMemory => exact absurd (by decide) hw
    | sysrstnFall => exact absurd (by decide) hw
    | _ => cases hi

/-! ## The write that reaches memory -/

/-- A write stands at memory under a grant, with its data and lanes (R5, R18). -/
abbrev State.Writes (s : State) (h : Claimant) (a : Addr) (d : Word) (lanes : Lanes) : Prop :=
  s.arb.grant = some ⟨h, .write⟩ ∧ s.mport = .writing a d lanes

/-- A settled write stands behind its capture read (R11). -/
abbrev State.WriteSettled (s : State) (h : Claimant) (a : Addr) (d : Word) (lanes : Lanes) : Prop :=
  s.arb.grant = some ⟨h, .captureRead d lanes⟩ ∧ s.mport = .reading a

/-- The write that stands at memory has reached it. -/
abbrev State.Written (s t : State) : Prop :=
  ∃ h a d lanes, s.Writes h a d lanes ∧ t.mem = s.mem.writeWord a d lanes

theorem execControllerWriteReachesMemory_mem {s t : State} (he : execControllerWriteReachesMemory s = .next t) :
    t.mem = s.mem ∨ s.Written t := by
  unfold execControllerWriteReachesMemory at he
  split at he
  · rename_i a d lanes acc hg hm hp
    cases he
    exact .inr ⟨_, a, d, lanes, ⟨hg, hm⟩, (State.endAccess_mem _ _).trans (State.markerCheck_mem _ _)⟩
  · cases he; exact .inl rfl

theorem execWriteOperationReachesMemory_mem {s t : State} (he : execWriteOperationReachesMemory s = .next t) :
    t.mem = s.mem ∨ s.Written t := by
  unfold execWriteOperationReachesMemory at he
  split at he
  · rename_i a d lanes o rest hg hm ho
    split at he
    · cases he; exact .inr ⟨_, a, d, lanes, ⟨hg, hm⟩, State.retireHead_mem _ _⟩
    · cases he; exact .inl rfl
    · cases he; exact .inl rfl
  · cases he; exact .inl rfl

theorem execModifyWriteReachesMemory_mem {s t : State} (he : execModifyWriteReachesMemory s = .next t) :
    t.mem = s.mem ∨ s.Written t := by
  unfold execModifyWriteReachesMemory at he
  split at he
  · rename_i a d lanes o rest hg hm ho
    split at he
    · cases he; exact .inr ⟨_, a, d, lanes, ⟨hg, hm⟩, State.retireHead_mem _ _⟩
    · cases he; exact .inl rfl
    · cases he; exact .inl rfl
  · cases he; exact .inl rfl

theorem execSysrstnFall_mem {s t : State} (he : execSysrstnFall s = .next t) :
    t.mem = s.mem ∨ ∃ h a d lanes, (s.Writes h a d lanes ∨ s.WriteSettled h a d lanes)
      ∧ t.mem = s.mem.writeWord a d lanes := by
  cases he
  split
  · by_cases hset : ∃ h a d lanes, s.WriteSettled h a d lanes ∨ s.Writes h a d lanes
    · obtain ⟨h, a, d, lanes, hset⟩ := hset
      exact .inr ⟨h, a, d, lanes, hset.symm, State.carryGrant_mem_of_settled hset⟩
    · refine .inl ?_
      unfold State.carryGrant
      split
      · exact absurd ⟨_, _, _, _, .inl ⟨‹_›, ‹_›⟩⟩ hset
      · exact absurd ⟨_, _, _, _, .inr ⟨‹_›, ‹_›⟩⟩ hset
      · rfl
  · exact .inl rfl

/-- A write under a grant is that of the access in progress or that of the head of the queue (R6, R10, R78, R79). -/
theorem State.PathOk.writer {s : State} (hs : s.PathOk) {h : Claimant} {a : Addr} {d : Word} {lanes : Lanes}
    (hset : s.Writes h a d lanes ∨ s.WriteSettled h a d lanes) :
    (h = .c ∧ ∃ acc, s.port = .active acc ∧ acc.write = true ∧ acc.addr = a ∧ acc.lanes = lanes
        ∧ acc.cls.cls ≠ some .absent ∧ acc.cls.guarded = false)
      ∨ (h = .q ∧ ∃ o others, s.ops = o :: others ∧ o.addr = a ∧ ∀ n, o.kind ≠ .read n) := by
  obtain ⟨-, -, hport, hhead, hfill, -⟩ := hs
  obtain ⟨stage, hg, haddr, hstage, hlanes⟩ : ∃ stage, s.arb.grant = some ⟨h, stage⟩ ∧ s.mport.addr = some a
      ∧ stage ≠ .read ∧ ∀ acc : Access, acc.fits s.mport stage = true → acc.write = true ∧ acc.lanes = lanes := by
    rcases hset with ⟨hg, hm⟩ | ⟨hg, hm⟩
    · refine ⟨_, hg, by rw [hm]; rfl, by simp, fun acc hf => ?_⟩
      simp only [Access.fits, hm, Bool.and_eq_true, decide_eq_true_eq] at hf
      exact ⟨hf.1, hf.2.symm⟩
    · refine ⟨_, hg, by rw [hm]; rfl, by simp, fun acc hf => ?_⟩
      simp only [Access.fits, Bool.and_eq_true, decide_eq_true_eq] at hf
      exact ⟨hf.1, hf.2.symm⟩
  cases h with
  | c =>
    obtain ⟨-, acc, hp, hfw, -, ha, hfits⟩ := (State.portOk_iff_of_grant hg).1 hport
    obtain ⟨hwrite, hl⟩ := hlanes acc hfits
    obtain ⟨habsent, hguard⟩ := (Access.forwarded_iff acc).1 hfw
    exact .inl ⟨rfl, acc, hp, hwrite, Option.some.inj (ha.symm.trans haddr), hl, habsent, hguard hwrite⟩
  | f => exact absurd ((State.fillClaimOk_iff_of_grant hg).1 hfill).2 hstage
  | q =>
    obtain ⟨-, o, rest, ho, -, ha, hfits⟩ := (State.headOk_iff_of_grant hg).1 hhead
    refine .inr ⟨rfl, o, rest, ho, Option.some.inj (ha.symm.trans haddr), fun n hk => ?_⟩
    rw [hk] at hfits
    cases stage with
    | read => exact hstage rfl
    | captureRead d l => cases hfits
    | write => cases hfits

/-- A command that changes memory writes the word that its grant has settled: at its end, or carried at the fall of SYSRSTN
(R10, R19, R78, R79). -/
theorem exec_mem_changed {i : Instr} {s t : State} (he : exec i s = .next t) (hne : t.mem ≠ s.mem) :
    i ∈ writers ∧ ∃ h a d lanes, (s.Writes h a d lanes ∨ s.WriteSettled h a d lanes ∧ i = .sysrstnFall)
      ∧ t.mem = s.mem.writeWord a d lanes := by
  have hi : i ∈ writers := by_contra fun hw => hne (exec_mem_of_not_writer hw he)
  have ended (hw : s.Written t) : ∃ h a d lanes, (s.Writes h a d lanes ∨ s.WriteSettled h a d lanes ∧ i = .sysrstnFall)
      ∧ t.mem = s.mem.writeWord a d lanes := by
    obtain ⟨h, a, d, lanes, hw, hm⟩ := hw
    exact ⟨h, a, d, lanes, .inl hw, hm⟩
  refine ⟨hi, ?_⟩
  simp only [writers, List.mem_cons, List.not_mem_nil, or_false] at hi
  rcases hi with rfl | rfl | rfl | rfl
  · exact ended ((execControllerWriteReachesMemory_mem he).resolve_left hne)
  · exact ended ((execWriteOperationReachesMemory_mem he).resolve_left hne)
  · exact ended ((execModifyWriteReachesMemory_mem he).resolve_left hne)
  · obtain ⟨h, a, d, lanes, hw, hm⟩ := (execSysrstnFall_mem he).resolve_left hne
    exact ⟨h, a, d, lanes, hw.imp id fun x => ⟨x, rfl⟩, hm⟩

/-- Settles O60: the front command writes what a grant has settled, which is the access's or the head's. -/
theorem memoryWrittenByGrants : Obligations.MemoryWrittenByGrants := by
  intro s t i rest hp hwf hs hstep hne
  have he : exec i { s with pending := rest } = .next t := by rw [step, hp] at hstep; exact hstep
  obtain ⟨hi, h, a, d, lanes, hset, hmem⟩ := exec_mem_changed he hne
  refine ⟨h, a, d, lanes, ?_, fun k => ?_, hs.writer (hset.imp id And.left)⟩
  · rcases hset with ⟨hg, hm⟩ | ⟨⟨hg, hm⟩, hfall⟩
    · exact .inl ⟨hg, hm, hi⟩
    · exact .inr ⟨hg, hm, hfall⟩
  · rw [hmem]
    exact Memory.readByte_writeWord s.mem hwf a d lanes k

end Sys2Proof.Machine
end

section
/-! The Region Table (file 02): lookup, where a marker may lie, and REGION SET. -/

namespace Sys2Proof.Machine

/-! ## Lookup (R23) -/

theorem Region.contains_iff (r : Region) (a : Addr) :
    r.contains a = true ↔ r.enabled = true ∧ r.base.toNat ≤ a.toNat ∧ a.toNat ≤ r.limit.toNat := by
  simp only [Region.contains, Bool.and_eq_true, decide_eq_true_eq, BitVec.le_def, and_assoc]

/-- The first record of a table that contains the address governs it. -/
theorem lookupFrom_of_first {regions : List Region} {a : Addr} {k : Nat} {r : Region} (n : Nat)
    (hk : regions[k]? = some r) (hr : r.contains a = true)
    (hfirst : ∀ j x, j < k → regions[j]? = some x → x.contains a = false) :
    lookupFrom n regions a = .region (n + k) r.cls r.guard := by
  induction regions generalizing n k with
  | nil => cases hk
  | cons x rest ih =>
    cases k with
    | zero =>
      obtain rfl : x = r := Option.some.inj hk
      rw [lookupFrom, if_pos hr, Nat.add_zero]
    | succ k =>
      have hx : x.contains a = false := hfirst 0 x k.succ_pos rfl
      have hrest := ih (n + 1) hk fun j y hj hy => hfirst (j + 1) y (Nat.succ_lt_succ hj) hy
      rw [lookupFrom, if_neg (by rw [hx]; decide), hrest, Nat.add_right_comm, Nat.add_assoc]

/-- An address that no record contains is unmapped. -/
theorem lookupFrom_of_none {regions : List Region} {a : Addr} (n : Nat) (h : ∀ r ∈ regions, r.contains a = false) :
    lookupFrom n regions a = .unmapped := by
  induction regions generalizing n with
  | nil => rfl
  | cons x rest ih =>
    rw [List.forall_mem_cons] at h
    rw [lookupFrom, if_neg (by rw [h.1]; decide), ih (n + 1) h.2]

/-- Settles O31: the first record that contains the address, or none of the table. -/
theorem lookupAnswers : Obligations.LookupAnswers := by
  intro regions a holds
  have contains_of {i : Nat} {r : Region} (h : holds i r) : r.contains a = true := (Region.contains_iff r a).2 h.2
  have not_contains {i : Nat} {r : Region} (hi : regions[i]? = some r) (h : ¬ holds i r) : r.contains a = false :=
    Bool.eq_false_iff.2 fun hc => h ⟨hi, (Region.contains_iff r a).1 hc⟩
  constructor
  · intro i r hr hfirst
    have hl := lookupFrom_of_first 0 hr.1 (contains_of hr) fun j x hj hx => not_contains hx (hfirst j x hj)
    rwa [Nat.zero_add] at hl
  · intro hnone
    refine lookupFrom_of_none 0 fun r hr => ?_
    obtain ⟨i, hi⟩ := List.mem_iff_getElem?.1 hr
    exact not_contains hi (hnone i r)

/-! ## What a classification answers -/

theorem Classification.isUnmapped_iff (k : Classification) : k.isUnmapped = true ↔ k = .unmapped := by
  cases k <;> simp [Classification.isUnmapped, Classification.cls]

/-- The marker's places are those of R134. -/
theorem markerAllowed_iff (regions : List Region) (a : Addr) :
    (lookup regions a).markerAllowed = true ↔ MarkerAt regions a := by
  unfold MarkerAt
  cases lookup regions a with
  | unmapped => simp [Classification.markerAllowed]
  | region n k g => cases k <;> cases g <;> simp [Classification.markerAllowed]

theorem markerFits_iff (regions : List Region) (m : Option Addr) :
    markerFits regions m = true ↔ ∀ a, m = some a → (lookup regions a).markerAllowed = true := by
  cases m <;> simp [markerFits]

/-! ## REGION SET (R35, R36, R186) -/

/-- The three causes of CONFLICT (R35). -/
theorem State.regionConflict_iff (s : State) (regions : List Region) :
    s.regionConflict regions = true ↔ s.forces ≠ [] ∨ (∃ e ∈ s.watch.elements, lookup regions e.addr = .unmapped)
      ∨ ∃ a, s.sup.marker = some a ∧ ¬ MarkerAt regions a := by
  have hm : markerFits regions s.sup.marker = false ↔ ∃ a, s.sup.marker = some a ∧ ¬ MarkerAt regions a := by
    rw [Bool.eq_false_iff, ne_eq, markerFits_iff]
    simp only [markerAllowed_iff, not_forall, exists_prop]
  simp only [State.regionConflict, Bool.or_eq_true, decide_eq_true_eq, List.any_eq_true, Classification.isUnmapped_iff,
    Bool.not_eq_true', hm, or_assoc]

theorem State.anyFilling_iff (s : State) :
    s.anyFilling = true ↔ s.bankA.state = .filling ∨ s.bankB.state = .filling := by
  simp only [State.anyFilling, Bool.or_eq_true, decide_eq_true_eq]

/-- The taking leaves a FILLING bank FILLING, and no other becomes one (R123). -/
theorem State.takeRequest_filling (s : State) (code : Byte) (i : BankId) :
    ((s.takeRequest code).bank i).state = .filling ↔ (s.bank i).state = .filling := by
  rcases s.takeRequest_bank code i with h | ⟨hs, h⟩
  · rw [h]
  · rw [h, hs]; exact ⟨nofun, nofun⟩

@[simp] theorem State.takeRequest_anyFilling (s : State) (code : Byte) :
    (s.takeRequest code).anyFilling = s.anyFilling := by
  rw [Bool.eq_iff_iff, State.anyFilling_iff, State.anyFilling_iff]
  exact or_congr (s.takeRequest_filling code .a) (s.takeRequest_filling code .b)

@[simp] theorem State.takeRequest_regionConflict (s : State) (code : Byte) (regions : List Region) :
    (s.takeRequest code).regionConflict regions = s.regionConflict regions := by
  simp [State.regionConflict]

/-- A request whose carrying out comes to an answer replies with it, where the change made before it left the request code
and the lease as the taking set them. -/
theorem State.onRequest_replies {i : Instr} {s v : State} {c : RxChar} {code : Byte} {params : List Byte}
    {carryOut : List Byte → State → State} {st : Status} {data : List Byte} (hi : exec i s = s.onRequest c code carryOut)
    (h : s.Requests c (code :: params)) (hv : carryOut params (s.takeRequest code) = v.answer st data)
    (hcode : v.exch = (s.takeRequest code).exch) (hlease : v.lease = (s.takeRequest code).lease) :
    Replies i s v code st data := by
  refine ⟨v.answer st data, ?_, State.answer_answers v code st data ?_ ?_⟩
  · rw [hi, State.onRequest_requests s c code params carryOut h, hv]
  · rw [hcode, State.takeRequest_code]
  · rw [hlease, State.takeRequest_follow]

/-- REGION SET of a record, on a request taken: the checks that follow FORMAT read the state it was taken from. -/
theorem doRegionSet_taken {params : List Byte} {n : Nat} {r : Region} (h : parseRegion params = some (n, r)) (s : State) :
    doRegionSet params (s.takeRequest 0x50) =
      let u := s.takeRequest 0x50
      let table := s.regions.set n r
      if s.lease.level ≠ .service then u.answer .level []
      else if s.anyFilling then u.answer .busy []
      else if s.regionConflict table then u.answer .conflict []
      else { u with regions := table }.answer .ok [] := by
  simp only [doRegionSet, h, State.takeRequest_level, State.takeRequest_anyFilling, State.takeRequest_regions,
    State.takeRequest_regionConflict]

/-- Settles O51: a payload is the layout of one record or of none, and the checks of a record in their order. -/
theorem regionSetTaken : Obligations.RegionSetTaken := by
  rintro s c params hreq u rfl
  constructor
  · intro n r hwf hlayout table filling conflict
    have hd := doRegionSet_taken ((parseRegion_some params n r).2 ⟨hwf, hlayout⟩) s
    have hf : s.anyFilling = true ↔ filling := s.anyFilling_iff
    have hc : s.regionConflict table = true ↔ conflict := s.regionConflict_iff table
    constructor
    · intro hl
      exact State.onRequest_replies rfl hreq (hd.trans (if_pos hl)) rfl rfl
    · intro hl
      have hd := hd.trans (if_neg (not_not.2 hl))
      refine ⟨fun hfill => ?_, fun hfill hconf => ?_, fun hfill hconf => ?_⟩
      · exact State.onRequest_replies rfl hreq (hd.trans (if_pos (hf.2 hfill))) rfl rfl
      · refine State.onRequest_replies rfl hreq (hd.trans ?_) rfl rfl
        rw [if_neg (mt hf.1 hfill), if_pos (hc.2 hconf)]
      · refine State.onRequest_replies rfl hreq (hd.trans ?_) rfl rfl
        rw [if_neg (mt hf.1 hfill), if_neg (mt hc.1 hconf)]
  · intro hnone
    have hp : parseRegion params = none := Option.eq_none_iff_forall_ne_some.2 fun ⟨n, r⟩ hp => by
      obtain ⟨hwf, hlayout⟩ := (parseRegion_some params n r).1 hp
      exact hnone n r hwf hlayout
    exact State.onRequest_replies rfl hreq (by rw [doRegionSet, hp]) rfl rfl

end Sys2Proof.Machine
end

section
/-! The Force Table in its order (R39): what a FORCE leaves in it, and which words its entries name. -/

namespace Sys2Proof.Machine

/-! ## Entries put in their places -/

/-- The masks an entry may have (R39). -/
abbrev ForceEntry.Masked (e : ForceEntry) : Prop := (e.set ≠ 0 ∨ e.clr ≠ 0) ∧ e.set &&& e.clr = 0

/-- A force table in ascending order with entries as R39 has them: State.ForcesOk but for the capacity. -/
structure ForcesInOrder (forces : List ForceEntry) : Prop where
  sorted : forces.Pairwise (fun x y => x.addr < y.addr)
  masked : ∀ e ∈ forces, e.Masked

theorem mem_insertEntry {e x : ForceEntry} {forces : List ForceEntry} :
    x ∈ insertEntry e forces ↔ x = e ∨ x ∈ forces := by
  induction forces with
  | nil => simp [insertEntry]
  | cons y rest ih =>
    rw [insertEntry]
    split
    · exact List.mem_cons
    · rw [List.mem_cons, ih, List.mem_cons, or_left_comm]

theorem insertEntry_sorted {e : ForceEntry} {forces : List ForceEntry}
    (h : forces.Pairwise (fun x y => x.addr < y.addr)) (hne : ∀ x ∈ forces, x.addr ≠ e.addr) :
    (insertEntry e forces).Pairwise (fun x y => x.addr < y.addr) := by
  induction forces with
  | nil => exact List.pairwise_singleton _ _
  | cons y rest ih =>
    obtain ⟨hy, hrest⟩ := List.pairwise_cons.1 h
    rw [List.forall_mem_cons] at hne
    rw [insertEntry]
    split
    · rename_i hlt
      refine List.pairwise_cons.2 ⟨fun x hx => ?_, h⟩
      rcases List.mem_cons.1 hx with rfl | hx
      · exact hlt
      · exact BitVec.lt_trans hlt (hy x hx)
    · rename_i hge
      have hlt : y.addr < e.addr := by
        have hy := hne.1
        bv_omega
      refine List.pairwise_cons.2 ⟨fun x hx => ?_, ih hrest hne.2⟩
      rcases mem_insertEntry.1 hx with rfl | hx
      · exact hlt
      · exact hy x hx

theorem mem_removeEntry {a : Addr} {x : ForceEntry} {forces : List ForceEntry} :
    x ∈ removeEntry forces a ↔ x ∈ forces ∧ x.addr ≠ a := by
  simp [removeEntry]

/-- What stands in the table after a word is given its masks (R51): the entries of the other words, and an entry of its own
with a forced bit. -/
theorem mem_putMasks {a : Addr} {set clr : Word} {x : ForceEntry} {forces : List ForceEntry} :
    x ∈ putMasks forces a set clr ↔ (x = ⟨a, set, clr⟩ ∧ (set ≠ 0 ∨ clr ≠ 0)) ∨ (x ∈ forces ∧ x.addr ≠ a) := by
  unfold putMasks
  split
  · rename_i h
    obtain ⟨rfl, rfl⟩ : set = 0 ∧ clr = 0 := by simpa using h
    simp [mem_removeEntry]
  · rename_i h
    have hbit : set ≠ 0 ∨ clr ≠ 0 := by simpa [imp_iff_not_or] using h
    simp only [mem_insertEntry, mem_removeEntry, hbit, and_true]

theorem putMasks_inOrder {forces : List ForceEntry} (h : ForcesInOrder forces) (a : Addr) {set clr : Word}
    (hd : set &&& clr = 0) : ForcesInOrder (putMasks forces a set clr) where
  sorted := by
    have hrest : (removeEntry forces a).Pairwise (fun x y => x.addr < y.addr) := h.sorted.filter _
    unfold putMasks
    split
    · exact hrest
    · exact insertEntry_sorted hrest fun x hx => (mem_removeEntry.1 hx).2
  masked := by
    intro x hx
    rcases mem_putMasks.1 hx with ⟨rfl, hbit⟩ | ⟨hx, -⟩
    · exact ⟨hbit, hd⟩
    · exact h.masked x hx

/-! ## The changes of a FORCE (R51) -/

theorem masksOf_disjoint {forces : List ForceEntry} (h : ForcesInOrder forces) (a : Addr) :
    (masksOf forces a).1 &&& (masksOf forces a).2 = 0 := by
  unfold masksOf
  cases he : entryFor forces a with
  | none => rfl
  | some e => exact (h.masked e (List.mem_of_find?_eq_some he)).2

/-- A bit that a word record forces one way is freed the other way, so disjoint masks stay disjoint. -/
theorem newMasks_disjoint {set clr : Word} (h : set &&& clr = 0) (fset fclr rel : Word) :
    ((set ||| fset) &&& ~~~(fclr ||| rel)) &&& ((clr ||| fclr) &&& ~~~(fset ||| rel)) = 0 := by
  have bitwise : ∀ s c fs fc r : Bool, (s && c) = false →
      (((s || fs) && !(fc || r)) && ((c || fc) && !(fs || r))) = false := by decide
  rw [and_eq_zero_iff] at h ⊢
  intro i hi
  simp only [BitVec.getLsbD_and, BitVec.getLsbD_or, BitVec.getLsbD_not, hi, decide_true, Bool.true_and]
  exact bitwise _ _ _ _ _ (h i hi)

theorem applyForceWord_inOrder {forces : List ForceEntry} (h : ForcesInOrder forces) (f : ForceWord) :
    ForcesInOrder (applyForceWord forces f) :=
  putMasks_inOrder h f.addr (newMasks_disjoint (masksOf_disjoint h f.addr) f.fset f.fclr f.rel)

/-- A FORCE leaves the table in order (R39, R51). -/
theorem applyForce_inOrder {forces : List ForceEntry} (h : ForcesInOrder forces) (ws : List ForceWord) :
    ForcesInOrder (applyForce forces ws) := by
  induction ws generalizing forces with
  | nil => exact h
  | cons f rest ih => exact ih (applyForceWord_inOrder h f)

/-- The entries after a FORCE name words of the table before it or words it names. -/
theorem addr_of_mem_applyForce {forces : List ForceEntry} {ws : List ForceWord} {x : ForceEntry}
    (h : x ∈ applyForce forces ws) : x ∈ forces ∨ ∃ f ∈ ws, x.addr = f.addr := by
  induction ws generalizing forces with
  | nil => exact .inl h
  | cons f rest ih =>
    rcases ih (forces := applyForceWord forces f) h with hx | ⟨g, hg, hx⟩
    · rcases mem_putMasks.1 hx with ⟨rfl, -⟩ | ⟨hx, -⟩
      · exact .inr ⟨f, List.mem_cons_self, rfl⟩
      · exact .inl hx
    · exact .inr ⟨g, List.mem_cons_of_mem f hg, hx⟩

end Sys2Proof.Machine
end

section
/-! The tables as the commands change them (R21, R30, R31, R39, R40, R134): most commands carry them, and REGION SET, SCAN
CONFIG and FORCE make their changes under the checks that keep them. -/

namespace Sys2Proof.Machine

/-! ## What holds of the tables, and what carries it -/

/-- The relations of the tables together. -/
abbrev State.TablesOk (s : State) : Prop :=
  s.RegionsOk ∧ s.GuardLogOk ∧ s.ForcesOk ∧ s.ForcesPlaced ∧ s.MarkerPlaced

/-- The part of the state that the relations of the tables speak of. -/
structure Tables where
  regions : List Region
  guardLog : GuardLog
  forces : List ForceEntry
  marker : Option Addr

def State.tables (s : State) : Tables := ⟨s.regions, s.guardLog, s.forces, s.sup.marker⟩

/-- A change carries the tables: the regions and the marker stay, the Force Table stays or is released (R54), and the Guard
Log stays within its limits. -/
structure State.CarriesTables (s t : State) : Prop where
  regions : t.regions = s.regions
  marker : t.sup.marker = s.sup.marker
  forces : t.forces = s.forces ∨ t.forces = []
  guardLog : s.GuardLogOk → t.GuardLogOk

theorem State.CarriesTables.of_eq {s t : State} (h : t.tables = s.tables) : s.CarriesTables t := by
  obtain ⟨hregions, hlog, hforces, hmarker⟩ := Tables.mk.injEq .. |>.mp h
  exact ⟨hregions, hmarker, .inl hforces, fun hs => by rwa [State.GuardLogOk, hlog]⟩

theorem State.CarriesTables.refl (s : State) : s.CarriesTables s := .of_eq rfl

theorem State.CarriesTables.trans {s t u : State} (h : s.CarriesTables t) (h' : t.CarriesTables u) : s.CarriesTables u where
  regions := h'.regions.trans h.regions
  marker := h'.marker.trans h.marker
  forces := by
    rcases h'.forces with hf | hf
    · rw [hf]; exact h.forces
    · exact .inr hf
  guardLog := h'.guardLog ∘ h.guardLog

/-- A change that carries the tables keeps what holds of them: the placing of entries and marker reads the regions alone. -/
theorem State.CarriesTables.tablesOk {s t : State} (h : s.CarriesTables t) (hs : s.TablesOk) : t.TablesOk := by
  obtain ⟨hregions, hlog, hforces, hplaced, hmarker⟩ := hs
  have hfs : t.ForcesOk ∧ t.ForcesPlaced := by
    unfold State.ForcesOk State.ForcesPlaced
    rcases h.forces with hf | hf
    · rw [hf, h.regions]; exact ⟨hforces, hplaced⟩
    · rw [hf]; exact ⟨⟨.nil, Nat.zero_le _, nofun⟩, nofun⟩
  refine ⟨?_, h.guardLog hlog, hfs.1, hfs.2, ?_⟩
  · rw [State.RegionsOk, h.regions]; exact hregions
  · rw [State.MarkerPlaced, h.regions, h.marker]; exact hmarker

/-- A change made under a condition alone. -/
theorem State.CarriesTables.ite {s t : State} (c : Prop) [Decidable c] (h : s.CarriesTables t) :
    s.CarriesTables (if c then t else s) := by
  split
  · exact h
  · exact .refl s

/-! ## The link, the lease and the banks -/

theorem State.releaseAll_carries (s : State) : s.CarriesTables s.releaseAll := ⟨rfl, rfl, .inr rfl, id⟩

theorem State.dropToView_carries (s : State) : s.CarriesTables s.dropToView := ⟨rfl, rfl, .inr rfl, id⟩

theorem State.endFrame_carries (s : State) : s.CarriesTables s.endFrame := by
  obtain ⟨_, _, h⟩ := s.endFrame_changes; rw [h]; exact .of_eq rfl

theorem State.discardFrame_carries (s : State) : s.CarriesTables s.discardFrame := by
  obtain ⟨_, _, h⟩ := s.discardFrame_changes; rw [h]; exact .of_eq rfl

theorem State.endExchange_carries (s : State) (dest : BankState) : s.CarriesTables (s.endExchange dest) := by
  obtain ⟨_, _, h⟩ := s.endExchange_changes dest; rw [h]; exact .of_eq rfl

theorem State.endTransfer_carries (s : State) : s.CarriesTables s.endTransfer := by
  obtain ⟨_, _, _, _, h⟩ := s.endTransfer_changes; rw [h]; exact .of_eq rfl

theorem State.takeRequest_carries (s : State) (code : Byte) : s.CarriesTables (s.takeRequest code) := by
  obtain ⟨_, _, _, _, h⟩ := s.takeRequest_changes code; rw [h]; exact .of_eq rfl

theorem State.serveContinue_carries (s : State) (segment : Nat) : s.CarriesTables (s.serveContinue segment) := by
  obtain ⟨_, _, _, _, h⟩ := s.serveContinue_changes segment; rw [h]; exact .of_eq rfl

theorem State.answer_carries (s : State) (st : Status) (data : List Byte) : s.CarriesTables (s.answer st data) :=
  .of_eq rfl

theorem State.setBank_carries (s : State) (i : BankId) (b : Bank) : s.CarriesTables (s.setBank i b) := by
  obtain ⟨_, _, h⟩ := s.setBank_changes i b; rw [h]; exact .of_eq rfl

theorem State.emptyBank_carries (s : State) (i : BankId) : s.CarriesTables (s.emptyBank i) := by
  obtain ⟨_, _, h⟩ := s.emptyBank_changes i; rw [h]; exact .of_eq rfl

theorem State.actBroadcast_carries (s : State) (payload : List Byte) : s.CarriesTables (s.actBroadcast payload) := by
  unfold State.actBroadcast
  split
  · exact .refl s
  · split
    · exact .ite _ s.releaseAll_carries
    · split
      · split
        · exact s.dropToView_carries
        · exact .refl s
      · exact .refl s

/-! ## The arbiter, the queue and the Capture Unit -/

theorem State.decideGrant_carries (s : State) : s.CarriesTables s.decideGrant := by
  obtain ⟨_, _, _, h⟩ := s.decideGrant_changes; rw [h]; exact .of_eq rfl

theorem State.afterControllerGrant_carries (s : State) : s.CarriesTables s.endGrant.afterControllerGrant := by
  obtain ⟨_, _, _, h⟩ := s.endGrant.afterControllerGrant_changes; rw [h]; exact .of_eq rfl

theorem State.examineRecord_carries (s : State) : s.CarriesTables s.examineRecord := by
  obtain ⟨_, _, _, h⟩ := s.examineRecord_changes; rw [h]; exact .of_eq rfl

theorem State.enqueue_carries (s : State) (new : List Operation) : s.CarriesTables (s.enqueue new) := by
  obtain ⟨_, _, _, _, _, _, h⟩ := s.enqueue_changes new; rw [h]; exact .of_eq rfl

theorem State.retireHead_carries (s : State) (w : Word) : s.CarriesTables (s.retireHead w) := by
  obtain ⟨_, _, _, _, _, _, h⟩ := s.retireHead_changes w; rw [h]; exact .of_eq rfl

theorem State.abandonRecord_carries (s : State) : s.CarriesTables s.abandonRecord := by
  obtain ⟨_, _, _, h⟩ := s.abandonRecord_changes; rw [h]; exact .of_eq rfl

theorem State.capture_carries (s : State) (a : Addr) (w : Word) : s.CarriesTables (s.capture a w) := by
  obtain ⟨_, _, _, _, _, h⟩ := s.capture_changes a w; rw [h]; exact .of_eq rfl

/-! ## The Scan Supervisor -/

theorem State.enterStall_carries (s : State) : s.CarriesTables s.enterStall := by
  unfold State.enterStall
  dsimp only
  split
  · exact ⟨rfl, rfl, .inr rfl, id⟩
  · exact .of_eq rfl

@[simp] theorem Supervisor.atMarker_marker (v : Supervisor) : v.atMarker.marker = v.marker := by
  unfold Supervisor.atMarker Supervisor.periodAtMarker
  cases v.state <;> rfl

@[simp] theorem Supervisor.takeMarker_marker (v : Supervisor) (now : Micros) : (v.takeMarker now).marker = v.marker :=
  Supervisor.atMarker_marker _

theorem State.marker_carries (s : State) : s.CarriesTables s.marker := by
  unfold State.marker
  refine (State.CarriesTables.ite (s.sup.due = true) s.enterStall_carries).trans ?_
  generalize (if s.sup.due = true then s.enterStall else s) = u
  obtain ⟨_, _, _, _, _, _, _, h⟩ := State.judgeMarker_changes { u with sup := u.sup.takeMarker u.time } u.sup.periodAtMarker
  dsimp only at h ⊢
  rw [h]
  exact ⟨rfl, Supervisor.takeMarker_marker _ _, .inl rfl, id⟩

theorem State.markerCheck_carries (s : State) (a : Addr) : s.CarriesTables (s.markerCheck a) :=
  .ite _ s.marker_carries

/-- The expiries that are due release the Force Table at most (R67, R139, R161). -/
theorem State.takeExpiries_carries (s : State) : s.CarriesTables s.takeExpiries := by
  have hlease (u : State) : u.CarriesTables (if u.leaseDue then u.expireLease else u) := .ite _ ⟨rfl, rfl, .inr rfl, id⟩
  have hstall (u : State) : u.CarriesTables (if u.sup.due then u.enterStall else u) := .ite _ u.enterStall_carries
  have hcont (u : State) : u.CarriesTables (if u.continuationDue then u.endTransfer else u) := .ite _ u.endTransfer_carries
  exact ((hlease s).trans (hstall _)).trans (hcont _)

/-! ## The Controller Port and the Guard Log (R29 to R31) -/

/-- A record of an access that enables a lane and holds no data outside its lanes leaves the Guard Log within its limits. -/
theorem State.GuardLogOk.block {s : State} (h : s.GuardLogOk) {acc : Access}
    (hd : acc.data &&& ~~~acc.lanes.mask = 0) (hl : (acc.lanes.upper || acc.lanes.lower) = true) :
    (s.block acc).GuardLogOk := by
  obtain ⟨hlen, hdrop, hrec⟩ := h
  rw [State.GuardLogOk, State.block_guardLog, GuardLog.take_eq]
  split
  · rename_i hroom
    refine ⟨?_, hdrop, ?_⟩
    · rw [List.length_append]; exact hroom
    · rw [List.forall_mem_append]
      exact ⟨hrec, List.forall_mem_singleton.2 ⟨hd, hl⟩⟩
  · refine ⟨hlen, ?_, hrec⟩
    dsimp only
    split <;> omega

theorem accessOf_lanes_of_takes (regions : List Region) {p : BusPins} (h : p.takes = true) :
    ((accessOf regions p).lanes.upper || (accessOf regions p).lanes.lower) = true := by
  obtain ⟨⟨-, hlanes⟩, -⟩ : (p.csn = false ∧ (!p.ubn || !p.lbn) = true) ∧ (!p.wen || !p.oen) = true := by
    simpa [BusPins.takes] using h
  exact hlanes

/-- A take that pins of R1 form carries the tables; where it is a blocked write, the Guard Log takes it. -/
theorem State.takeAccess_carries {s : State} (h : s.bus.takes = true) : s.CarriesTables s.takeAccess := by
  have harb (claims : Bool) (u : State) : u.CarriesTables (u.takeAtArbiter claims) := by
    obtain ⟨_, _, _, hch⟩ := u.takeAtArbiter_changes claims; rw [hch]; exact .of_eq rfl
  unfold State.takeAccess
  dsimp only
  split
  · exact State.CarriesTables.trans (t := { s with port := .active (accessOf s.regions s.bus) }) (.of_eq rfl) (harb true _)
  · refine (harb false s).trans ?_
    split
    · split
      · exact ⟨rfl, rfl, .inl rfl, fun hg => hg.block (accessOf_data_masked _ _) (accessOf_lanes_of_takes _ h)⟩
      · exact .of_eq rfl
    · exact .of_eq rfl

theorem State.tryTake_carries (s : State) : s.CarriesTables s.tryTake := by
  unfold State.tryTake
  split
  · rename_i h
    obtain ⟨⟨-, hbus⟩, -⟩ := by simpa only [Bool.and_eq_true] using h
    exact State.takeAccess_carries hbus
  · exact .refl s

theorem State.completeAccess_carries (s : State) (word : Option Word) : s.CarriesTables (s.completeAccess word) := by
  unfold State.completeAccess
  split
  · split
    · exact State.CarriesTables.trans (t := { s with port := .idle }) (.of_eq rfl) (State.tryTake_carries _)
    · exact .of_eq rfl
  · exact .refl s

theorem State.moveBus_carries (s : State) (p : BusPins) : s.CarriesTables (s.moveBus p) := by
  unfold State.moveBus
  split
  · exact State.CarriesTables.trans (t := { s with bus := p }) (.of_eq rfl) (State.tryTake_carries _)
  · exact .of_eq rfl

/-- The end of a controller access carries the tables (R2, R17). -/
theorem State.endAccess_carries (s : State) (word : Option Word) :
    s.CarriesTables (s.endGrant.afterControllerGrant.completeAccess word) :=
  s.afterControllerGrant_carries.trans (State.completeAccess_carries _ word)

end Sys2Proof.Machine
end

section
/-! Every step keeps the tables: the commands that carry them, the three requests that change them under checks, and device
reset. -/

namespace Sys2Proof.Machine

/-! ## The requests that carry the tables -/

/-- A request that carries the tables in its carrying out carries them from its taking. -/
theorem State.onRequest_carries {s t : State} {c : RxChar} {code : Byte} {carryOut : List Byte → State → State}
    (h : s.onRequest c code carryOut = .next t) (hk : ∀ params (u : State), u.CarriesTables (carryOut params u)) :
    s.CarriesTables t :=
  State.onRequest_keeps s.CarriesTables (.refl s) (fun params => (s.takeRequest_carries code).trans (hk params _)) h

theorem withoutParams_carries {carryOut : State → State} (hk : ∀ u : State, u.CarriesTables (carryOut u))
    (params : List Byte) (u : State) : u.CarriesTables (withoutParams carryOut params u) := by
  unfold withoutParams
  split
  · exact hk u
  · exact u.answer_carries .format []

theorem doProbe_carries (params : List Byte) (u : State) : u.CarriesTables (doProbe params u) := by
  unfold doProbe
  split <;> exact u.answer_carries _ _

theorem doLevel_carries (params : List Byte) (u : State) : u.CarriesTables (doLevel params u) := by
  unfold doLevel
  split
  · exact u.answer_carries _ _
  · exact u.dropToView_carries.trans (State.answer_carries _ _ _)
  · exact .of_eq rfl

theorem doPeek_carries (params : List Byte) (u : State) : u.CarriesTables (doPeek params u) := by
  rcases doPeek_outcomes params u with ⟨st, he⟩ | ⟨a, n, he⟩ <;> rw [he]
  · exact u.answer_carries st []
  · exact State.CarriesTables.trans (t := { u with completion := some (.peek (List.replicate n none)) }) (.of_eq rfl)
      (State.enqueue_carries _ _)

theorem doPoke_carries (params : List Byte) (u : State) : u.CarriesTables (doPoke params u) := by
  rcases doPoke_outcomes params u with ⟨st, he⟩ | ⟨a, ws, he⟩ <;> rw [he]
  · exact u.answer_carries st []
  · exact (u.enqueue_carries _).trans (State.answer_carries _ _ _)

theorem doSync_carries (u : State) : u.CarriesTables { u with completion := some .sync }.examineRecord :=
  State.CarriesTables.trans (t := { u with completion := some .sync }) (.of_eq rfl) (State.examineRecord_carries _)

theorem State.changeWatch_carries (u : State) (new list : List WatchItem) : u.CarriesTables (u.changeWatch new list) := by
  rcases u.changeWatch_outcomes new list with ⟨st, he⟩ | ⟨-, w, data, he⟩ <;> rw [he]
  · exact u.answer_carries st []
  · exact .of_eq rfl

theorem doWatchDefine_carries (params : List Byte) (u : State) : u.CarriesTables (doWatchDefine params u) := by
  rcases doWatchDefine_outcomes params u with ⟨st, he⟩ | ⟨new, list, he⟩ <;> rw [he]
  · exact u.answer_carries st []
  · exact u.changeWatch_carries new list

theorem doWatchAppend_carries (params : List Byte) (u : State) : u.CarriesTables (doWatchAppend params u) := by
  rcases doWatchAppend_outcomes params u with ⟨st, he⟩ | ⟨new, list, he⟩ <;> rw [he]
  · exact u.answer_carries st []
  · exact u.changeWatch_carries new list

theorem doWatchArm_carries (params : List Byte) (u : State) : u.CarriesTables (doWatchArm params u) := by
  unfold doWatchArm
  split
  · exact u.answer_carries _ _
  · split <;> exact .of_eq rfl

theorem doSnapRead_carries (params : List Byte) (u : State) : u.CarriesTables (doSnapRead params u) := by
  unfold doSnapRead
  split
  · exact u.answer_carries _ _
  · split
    · exact u.answer_carries _ _
    · exact (u.setBank_carries _ _).trans (.of_eq rfl)

theorem State.acknowledge_carries (u : State) : u.CarriesTables u.acknowledge := by
  unfold State.acknowledge
  split
  · exact (u.emptyBank_carries .a).trans (State.answer_carries _ _ _)
  · split
    · exact (u.emptyBank_carries .b).trans (State.answer_carries _ _ _)
    · exact u.answer_carries _ _

theorem doScanStats_carries (params : List Byte) (u : State) : u.CarriesTables (doScanStats params u) := by
  unfold doScanStats
  split
  · exact u.answer_carries _ _
  · dsimp only
    split <;> exact .of_eq rfl

/-- LOG READ leaves the Guard Log empty (R32). -/
theorem doLogRead_carries (u : State) :
    u.CarriesTables ({ u with guardLog := ⟨[], 0⟩ }.answer .ok u.guardLog.data) :=
  ⟨rfl, rfl, .inl rfl, fun _ => ⟨Nat.zero_le _, Nat.zero_le _, nofun⟩⟩

theorem doAlertClear_carries (params : List Byte) (u : State) : u.CarriesTables (doAlertClear params u) := by
  unfold doAlertClear
  split <;> exact .of_eq rfl

theorem doAlertEnable_carries (params : List Byte) (u : State) : u.CarriesTables (doAlertEnable params u) := by
  unfold doAlertEnable
  split <;> exact .of_eq rfl

/-! ## The other commands that carry the tables -/

theorem execControllerReadDataReturn_carries {s t : State} (h : execControllerReadDataReturn s = .next t) :
    s.CarriesTables t := by
  unfold execControllerReadDataReturn at h
  split at h <;> cases h
  · exact s.endAccess_carries _
  · exact .refl s

theorem execReservationExpiry_carries {s t : State} (h : execReservationExpiry s = .next t) : s.CarriesTables t := by
  unfold execReservationExpiry at h
  split at h <;> cases h
  · exact State.CarriesTables.trans (t := { s with arb := { s.arb with reservation := none } }) (.of_eq rfl)
      (State.decideGrant_carries _)
  · exact .refl s

/-- A write that reaches memory changes no table by itself. -/
theorem State.setMem_carries (s : State) (m : Memory) : s.CarriesTables { s with mem := m } := .of_eq rfl

theorem execControllerWriteReachesMemory_carries {s t : State} (h : execControllerWriteReachesMemory s = .next t) :
    s.CarriesTables t := by
  unfold execControllerWriteReachesMemory at h
  split at h <;> cases h
  · exact ((s.setMem_carries _).trans (State.markerCheck_carries _ _)).trans (State.endAccess_carries _ _)
  · exact .refl s

/-- The write of a pair begins after its capture (R11, R79). -/
theorem State.captureThenWrite_carries (s : State) (a : Addr) (w : Word) (g : Option Grant) (m : MemPort) :
    s.CarriesTables { s.capture a w with arb := { (s.capture a w).arb with grant := g }, mport := m } :=
  (s.capture_carries a w).trans (.of_eq rfl)

theorem execCaptureReadReturn_carries {s t : State} (h : execCaptureReadReturn s = .next t) : s.CarriesTables t := by
  unfold execCaptureReadReturn at h
  split at h <;> cases h
  · exact s.captureThenWrite_carries _ _ _ _
  · exact .refl s

theorem execFillReadReturn_carries {s t : State} (h : execFillReadReturn s = .next t) : s.CarriesTables t := by
  unfold execFillReadReturn at h
  split at h <;> cases h
  · rename_i a _ _
    refine (s.capture_carries a (s.mem.readWord a)).trans (State.CarriesTables.trans ?_ (State.decideGrant_carries _))
    exact .of_eq rfl
  · exact .refl s

theorem execReadOperationDataReturn_carries {s t : State} (h : execReadOperationDataReturn s = .next t) :
    s.CarriesTables t := by
  unfold execReadOperationDataReturn at h
  split at h
  · split at h <;> cases h
    · exact s.retireHead_carries _
    · exact .refl s
    · exact .refl s
  · cases h; exact .refl s

theorem execWriteOperationReachesMemory_carries {s t : State} (h : execWriteOperationReachesMemory s = .next t) :
    s.CarriesTables t := by
  unfold execWriteOperationReachesMemory at h
  split at h
  · split at h <;> cases h
    · exact (s.setMem_carries _).trans (State.retireHead_carries _ _)
    · exact .refl s
    · exact .refl s
  · cases h; exact .refl s

theorem execModifyReadComplete_carries {s t : State} (h : execModifyReadComplete s = .next t) : s.CarriesTables t := by
  unfold execModifyReadComplete at h
  split at h
  · split at h <;> cases h
    · exact s.captureThenWrite_carries _ _ _ _
    · exact .refl s
    · exact .refl s
  · cases h; exact .refl s

theorem execModifyWriteReachesMemory_carries {s t : State} (h : execModifyWriteReachesMemory s = .next t) :
    s.CarriesTables t := by
  unfold execModifyWriteReachesMemory at h
  split at h
  · split at h <;> cases h
    · exact (s.setMem_carries _).trans (State.retireHead_carries _ _)
    · exact .refl s
    · exact .refl s
  · cases h; exact .refl s

theorem execSysrstnRise_carries {s t : State} {node : BitVec 4} {rate : BitVec 2} {space : Bool}
    (h : execSysrstnRise node rate space s = .next t) : s.CarriesTables t := by
  cases h
  split
  · exact .refl s
  · exact State.CarriesTables.trans
      (t := { s with sysrstn := true, strapNode := node, strapRate := rate, rx := ⟨.hunt, space⟩ }) (.of_eq rfl)
      (State.tryTake_carries _)

theorem execCtlrunRise_carries {s t : State} (h : execCtlrunRise s = .next t) : s.CarriesTables t := by
  cases h
  dsimp only
  split <;> exact .of_eq rfl

theorem execCtlrunFall_carries {s t : State} (h : execCtlrunFall s = .next t) : s.CarriesTables t := by
  cases h
  dsimp only
  split <;> exact .of_eq rfl

theorem execScanLimitExpiry_carries {s t : State} (h : execScanLimitExpiry s = .next t) : s.CarriesTables t := by
  cases h
  exact .ite _ s.enterStall_carries

theorem execLeaseExpiry_carries {s t : State} (h : execLeaseExpiry s = .next t) : s.CarriesTables t := by
  cases h
  exact .ite _ ⟨rfl, rfl, .inr rfl, id⟩

theorem execContinuationLimit_carries {s t : State} (h : execContinuationLimit s = .next t) : s.CarriesTables t := by
  cases h
  exact .ite _ s.endTransfer_carries

theorem execTimeBaseTick_carries {s t : State} (h : execTimeBaseTick s = .next t) : s.CarriesTables t := by
  cases h
  exact .ite _ (s.takeExpiries_carries.trans (.of_eq rfl))

theorem execFrameStart_carries {s t : State} {c : RxChar} (h : execFrameStart c s = .next t) : s.CarriesTables t := by
  cases h
  refine .ite _ ?_
  dsimp only
  split <;> exact .of_eq rfl

theorem execFrameCharacterTaken_carries {s t : State} {c : RxChar} (h : execFrameCharacterTaken c s = .next t) :
    s.CarriesTables t := by
  unfold execFrameCharacterTaken at h
  split at h <;> cases h
  · exact .refl s
  · exact .ite _ (.of_eq rfl)

theorem execOverlongLength_carries {s t : State} {c : RxChar} (h : execOverlongLength c s = .next t) :
    s.CarriesTables t := by
  unfold execOverlongLength at h
  split at h <;> cases h
  · exact .refl s
  · exact .ite _ s.discardFrame_carries

theorem execInterByteTimeout_carries {s t : State} (h : execInterByteTimeout s = .next t) : s.CarriesTables t := by
  unfold execInterByteTimeout at h
  split at h <;> cases h
  · exact .refl s
  · exact .ite _ s.discardFrame_carries

theorem execTurnViolationAtFinalByte_carries {s t : State} {c : RxChar} (h : execTurnViolationAtFinalByte c s = .next t) :
    s.CarriesTables t := by
  cases h
  exact .ite _ s.discardFrame_carries

theorem execBadFrame_carries {s t : State} {c : RxChar} (h : execBadFrame c s = .next t) : s.CarriesTables t := by
  cases h
  exact .ite _ s.discardFrame_carries

theorem execIgnoredFrame_carries {s t : State} {c : RxChar} (h : execIgnoredFrame c s = .next t) : s.CarriesTables t := by
  cases h
  exact .ite _ s.endFrame_carries

theorem execRequestOtherNode_carries {s t : State} {c : RxChar} (h : execRequestOtherNode c s = .next t) :
    s.CarriesTables t := by
  cases h
  exact .ite _ (s.endFrame_carries.trans s.endFrame.endTransfer_carries)

theorem execBroadcastRequest_carries {s t : State} {c : RxChar} (h : execBroadcastRequest c s = .next t) :
    s.CarriesTables t := by
  unfold execBroadcastRequest at h
  split at h <;> cases h
  · exact (s.endFrame_carries.trans s.endFrame.endTransfer_carries).trans (State.actBroadcast_carries _ _)
  · exact .refl s

theorem execContinueFrame_carries {s t : State} {c : RxChar} (h : execContinueFrame c s = .next t) :
    s.CarriesTables t := by
  unfold execContinueFrame at h
  have hrenew : s.CarriesTables s.endFrame.renewLease := s.endFrame_carries.trans (.of_eq rfl)
  split at h <;> cases h
  · split
    · exact hrenew.trans (State.serveContinue_carries _ _)
    · exact hrenew
  · exact s.endFrame_carries
  · exact .refl s

theorem execAbortFrame_carries {s t : State} {c : RxChar} (h : execAbortFrame c s = .next t) : s.CarriesTables t := by
  unfold execAbortFrame at h
  have hend : s.CarriesTables s.endFrame.endTransfer := s.endFrame_carries.trans s.endFrame.endTransfer_carries
  split at h <;> cases h
  · split
    · exact hend.trans (.of_eq rfl)
    · exact hend
  · exact .refl s

theorem execBreakLine_carries {s t : State} (h : execBreakLine s = .next t) : s.CarriesTables t := by
  cases h
  refine .ite _ ?_
  refine State.CarriesTables.trans (t := { s with rx := ⟨.hunt, true⟩ }) (.of_eq rfl) ?_
  dsimp only
  split
  · exact .refl _
  · exact .of_eq rfl
  · exact (State.abandonRecord_carries _).trans (State.endExchange_carries _ _)
  · exact State.endExchange_carries _ _
  · exact State.endExchange_carries _ _

theorem execFrameTransmitStart_carries {s t : State} (h : execFrameTransmitStart s = .next t) : s.CarriesTables t := by
  cases h
  refine .ite _ ?_
  dsimp only
  split
  · split
    · exact s.discardFrame_carries.trans (.of_eq rfl)
    · exact .of_eq rfl
  · exact .of_eq rfl

theorem execFrameSent_carries {s t : State} (h : execFrameSent s = .next t) : s.CarriesTables t := by
  unfold execFrameSent at h
  split at h <;> cases h
  · exact .refl s
  · exact .ite _ (s.endExchange_carries .ready)
  · refine .ite _ ?_
    split
    · exact s.endExchange_carries .sent
    · exact .of_eq rfl

theorem execEmptyRequest_carries {s t : State} {c : RxChar} (h : execEmptyRequest c s = .next t) :
    s.CarriesTables t := by
  cases h
  exact .ite _ ((s.takeRequest_carries 0x00).trans (State.answer_carries _ _ _))

theorem execUnknownRequest_carries {s t : State} {c : RxChar} (h : execUnknownRequest c s = .next t) :
    s.CarriesTables t := by
  unfold execUnknownRequest at h
  split at h
  · rename_i k _ _
    cases h
    split
    · exact .refl s
    · exact (s.takeRequest_carries k).trans (State.answer_carries _ _ _)
  · cases h
    exact .refl s

/-! ## The requests that change the tables under checks -/

/-- The taking keeps the tables, and so a request that keeps them in its carrying out keeps them. -/
theorem State.TablesOk.onRequest {s t : State} (h : s.TablesOk) {c : RxChar} {code : Byte}
    {carryOut : List Byte → State → State} (he : s.onRequest c code carryOut = .next t)
    (hk : ∀ params (u : State), u.TablesOk → (carryOut params u).TablesOk) : t.TablesOk :=
  State.onRequest_keeps State.TablesOk h (fun params => hk params _ ((s.takeRequest_carries code).tablesOk h)) he

/-- What a FORCE can come to (R50, R51, R178): a refusal, or its changes where every word it names is in a forcible region
and the table they give has room. -/
theorem doForce_admitted (params : List Byte) (u : State) :
    (∃ st, doForce params u = u.answer st [])
      ∨ ∃ ws : List ForceWord, (∀ f ∈ ws, (lookup u.regions f.addr).forcible = true)
        ∧ (applyForce u.forces ws).length ≤ 32
        ∧ doForce params u = (({ u with forces := applyForce u.forces ws } : State).enqueue
            (ws.filterMap (forceOp u.regions))).answer .ok [] := by
  unfold doForce
  split
  · exact .inl ⟨_, rfl⟩
  · dsimp only
    split_ifs with hview hunmapped hcls hfull hqueue
    · exact .inl ⟨_, rfl⟩
    · exact .inl ⟨_, rfl⟩
    · exact .inl ⟨_, rfl⟩
    · exact .inl ⟨_, rfl⟩
    · exact .inl ⟨_, rfl⟩
    · refine .inr ⟨_, fun f hf => ?_, Nat.not_lt.1 hfull, rfl⟩
      exact by_contra fun hforcible => hcls (List.any_eq_true.2 ⟨f, hf, by simpa using hforcible⟩)

theorem State.TablesOk.doForce {u : State} (h : u.TablesOk) (params : List Byte) : (doForce params u).TablesOk := by
  rcases doForce_admitted params u with ⟨st, he⟩ | ⟨ws, hcls, hroom, he⟩ <;> rw [he]
  · exact (u.answer_carries st []).tablesOk h
  · obtain ⟨hregions, hlog, ⟨hsorted, -, hmasked⟩, hplaced, hmarker⟩ := h
    have horder : ForcesInOrder (applyForce u.forces ws) := applyForce_inOrder ⟨hsorted, hmasked⟩ ws
    have hnew : ∀ e ∈ applyForce u.forces ws, (lookup u.regions e.addr).forcible = true := by
      intro e he
      rcases addr_of_mem_applyForce he with he | ⟨f, hf, ha⟩
      · exact hplaced e he
      · rw [ha]; exact hcls f hf
    refine ((State.enqueue_carries _ _).trans (State.answer_carries _ _ _)).tablesOk ?_
    exact ⟨hregions, hlog, ⟨horder.sorted, hroom, horder.masked⟩, hnew, hmarker⟩

theorem Supervisor.configure_marker (v : Supervisor) (m : Option Addr) (limit : BitVec 16) (x : StallAction)
    (ctlrun : Bool) : (v.configure m limit x ctlrun).marker = m := rfl

/-- What a SCAN CONFIG can come to (R142): a refusal, or a new marker where R134 lets it lie. -/
theorem doScanConfig_admitted (params : List Byte) (u : State) :
    (∃ st, doScanConfig params u = u.answer st [])
      ∨ ∃ v : Supervisor, markerFits u.regions v.marker = true
        ∧ doScanConfig params u = ({ u with sup := v } : State).answer .ok [] := by
  unfold doScanConfig
  split
  · exact .inl ⟨_, rfl⟩
  · split
    · exact .inl ⟨_, rfl⟩
    · split
      · exact .inl ⟨_, rfl⟩
      · rename_i hfits
        exact .inr ⟨_, by simpa [Supervisor.configure_marker] using hfits, rfl⟩

theorem State.TablesOk.doScanConfig {u : State} (h : u.TablesOk) (params : List Byte) :
    (doScanConfig params u).TablesOk := by
  rcases doScanConfig_admitted params u with ⟨st, he⟩ | ⟨v, hfits, he⟩ <;> rw [he]
  · exact (u.answer_carries st []).tablesOk h
  · obtain ⟨hregions, hlog, hforces, hplaced, -⟩ := h
    exact ⟨hregions, hlog, hforces, hplaced, (markerFits_iff _ _).1 hfits⟩

/-- What a REGION SET can come to (R35): a refusal, or a valid record in the table where no force is held and the marker
keeps its place. -/
theorem doRegionSet_admitted (params : List Byte) (u : State) :
    (∃ st, doRegionSet params u = u.answer st [])
      ∨ ∃ n r, r.valid = true ∧ u.forces = [] ∧ markerFits (u.regions.set n r) u.sup.marker = true
        ∧ doRegionSet params u = ({ u with regions := u.regions.set n r } : State).answer .ok [] := by
  unfold doRegionSet
  split
  · exact .inl ⟨_, rfl⟩
  · rename_i n r hparse
    dsimp only
    split_ifs with hlevel hfill hconflict
    · exact .inl ⟨_, rfl⟩
    · exact .inl ⟨_, rfl⟩
    · exact .inl ⟨_, rfl⟩
    · obtain ⟨⟨-, hvalid⟩, -⟩ := (parseRegion_some params n r).1 hparse
      simp only [State.regionConflict, Bool.or_eq_true, decide_eq_true_eq, Bool.not_eq_true', not_or, ne_eq, not_not,
        Bool.not_eq_false] at hconflict
      obtain ⟨⟨hforces, -⟩, hfits⟩ := hconflict
      exact .inr ⟨n, r, (Region.valid_iff r).2 hvalid, hforces, hfits, rfl⟩

theorem State.TablesOk.doRegionSet {u : State} (h : u.TablesOk) (params : List Byte) :
    (doRegionSet params u).TablesOk := by
  rcases doRegionSet_admitted params u with ⟨st, he⟩ | ⟨n, r, hvalid, hforces, hfits, he⟩ <;> rw [he]
  · exact (u.answer_carries st []).tablesOk h
  · obtain ⟨⟨hlen, hrecords⟩, hlog, hok, -, -⟩ := h
    have hset : ∀ x ∈ u.regions.set n r, x.valid = true := fun x hx => by
      rcases List.mem_or_eq_of_mem_set hx with hx | rfl
      · exact hrecords x hx
      · exact hvalid
    have hplaced : ∀ e ∈ u.forces, (lookup (u.regions.set n r) e.addr).forcible = true := by rw [hforces]; nofun
    exact ⟨⟨List.length_set.trans hlen, hset⟩, hlog, hok, hplaced, (markerFits_iff _ _).1 hfits⟩

/-! ## Device reset and the step -/

/-- The reset values of the tables are those of State.reset (R19, R22, R34, R58, R144). -/
theorem State.resetBlocks_tablesOk (s : State) : s.resetBlocks.TablesOk :=
  ⟨reset_meets_coherent.regions, reset_meets_coherent.guardLog, reset_meets_coherent.forces, reset_meets_coherent.placed,
    reset_meets_coherent.marker⟩

/-- The commands that can do more to the tables than carry them. -/
def changesTables : Instr → Bool
  | .sysrstnFall | .force _ | .scanConfig _ | .regionSet _ => true
  | _ => false

/-- Every other command carries the tables. -/
theorem exec_carries {i : Instr} {s t : State} (hi : changesTables i = false) (h : exec i s = .next t) :
    s.CarriesTables t := by
  cases i with
  | accessTake p => cases h; exact s.moveBus_carries p
  | cycleEnd p => cases h; exact s.moveBus_carries p
  | controllerReadDataReturn => exact execControllerReadDataReturn_carries h
  | reservationExpiry => exact execReservationExpiry_carries h
  | controllerWriteReachesMemory => exact execControllerWriteReachesMemory_carries h
  | captureReadReturn => exact execCaptureReadReturn_carries h
  | fillReadReturn => exact execFillReadReturn_carries h
  | readOperationDataReturn => exact execReadOperationDataReturn_carries h
  | writeOperationReachesMemory => exact execWriteOperationReachesMemory_carries h
  | modifyReadComplete => exact execModifyReadComplete_carries h
  | modifyWriteReachesMemory => exact execModifyWriteReachesMemory_carries h
  | sysrstnFall => cases hi
  | sysrstnRise node rate space => exact execSysrstnRise_carries h
  | ctlrunRise => exact execCtlrunRise_carries h
  | ctlrunFall => exact execCtlrunFall_carries h
  | scanLimitExpiry => exact execScanLimitExpiry_carries h
  | leaseExpiry => exact execLeaseExpiry_carries h
  | frameStart c => exact execFrameStart_carries h
  | overlongLength c => exact execOverlongLength_carries h
  | interByteTimeout => exact execInterByteTimeout_carries h
  | badFrame c => exact execBadFrame_carries h
  | ignoredFrame c => exact execIgnoredFrame_carries h
  | requestOtherNode c => exact execRequestOtherNode_carries h
  | broadcastRequest c => exact execBroadcastRequest_carries h
  | continueFrame c => exact execContinueFrame_carries h
  | abortFrame c => exact execAbortFrame_carries h
  | continuationLimit => exact execContinuationLimit_carries h
  | breakLine => exact execBreakLine_carries h
  | frameTransmitStart => exact execFrameTransmitStart_carries h
  | frameSent => exact execFrameSent_carries h
  | emptyRequest c => exact execEmptyRequest_carries h
  | unknownRequest c => exact execUnknownRequest_carries h
  | probe c => exact State.onRequest_carries h doProbe_carries
  | identify c => exact State.onRequest_carries h (withoutParams_carries fun u => u.answer_carries _ _)
  | status c => exact State.onRequest_carries h (withoutParams_carries fun u => u.answer_carries _ _)
  | level c => exact State.onRequest_carries h doLevel_carries
  | sessionClear c => exact State.onRequest_carries h (withoutParams_carries fun _ => ⟨rfl, rfl, .inr rfl, id⟩)
  | peek c => exact State.onRequest_carries h doPeek_carries
  | poke c => exact State.onRequest_carries h doPoke_carries
  | sync c => exact State.onRequest_carries h (withoutParams_carries doSync_carries)
  | force c => cases hi
  | releaseAll c => exact State.onRequest_carries h (withoutParams_carries fun _ => ⟨rfl, rfl, .inr rfl, id⟩)
  | forceList c => exact State.onRequest_carries h (withoutParams_carries fun u => u.answer_carries _ _)
  | watchDefine c => exact State.onRequest_carries h doWatchDefine_carries
  | watchAppend c => exact State.onRequest_carries h doWatchAppend_carries
  | watchList c => exact State.onRequest_carries h (withoutParams_carries fun u => u.answer_carries _ _)
  | watchArm c => exact State.onRequest_carries h doWatchArm_carries
  | watchStop c => exact State.onRequest_carries h (withoutParams_carries fun _ => .of_eq rfl)
  | snapRead c => exact State.onRequest_carries h doSnapRead_carries
  | snapAck c => exact State.onRequest_carries h (withoutParams_carries State.acknowledge_carries)
  | scanConfig c => cases hi
  | scanStats c => exact State.onRequest_carries h doScanStats_carries
  | regionSet c => cases hi
  | regionList c => exact State.onRequest_carries h (withoutParams_carries fun u => u.answer_carries _ _)
  | logRead c => exact State.onRequest_carries h (withoutParams_carries doLogRead_carries)
  | alertClear c => exact State.onRequest_carries h doAlertClear_carries
  | alertEnable c => exact State.onRequest_carries h doAlertEnable_carries
  | timeBaseTick => exact execTimeBaseTick_carries h
  | lrxReturnsToMark => cases h; exact .of_eq rfl
  | frameCharacterTaken c => exact execFrameCharacterTaken_carries h
  | turnViolationAtFinalByte c => exact execTurnViolationAtFinalByte_carries h

/-- Every command keeps what holds of the tables. -/
theorem State.TablesOk.exec {s t : State} (h : s.TablesOk) {i : Instr} (he : exec i s = .next t) : t.TablesOk := by
  cases hi : changesTables i with
  | false => exact (exec_carries hi he).tablesOk h
  | true =>
    cases i with
    | sysrstnFall =>
      cases he
      split
      · exact State.resetBlocks_tablesOk _
      · exact h
    | force c => exact h.onRequest he fun params _ hu => hu.doForce params
    | scanConfig c => exact h.onRequest he fun params _ hu => hu.doScanConfig params
    | regionSet c => exact h.onRequest he fun params _ hu => hu.doRegionSet params
    | _ => cases hi

/-- Settles O54: an empty queue idles, and the front command keeps the tables. -/
theorem tablesKept : Obligations.TablesKept := by
  intro s t hstep hregions hlog hforces hplaced hmarker
  unfold step at hstep
  split at hstep
  · cases hstep
    exact ⟨hregions, hlog, hforces, hplaced, hmarker⟩
  · rename_i i rest _
    exact State.TablesOk.exec (s := { s with pending := rest }) ⟨hregions, hlog, hforces, hplaced, hmarker⟩ hstep

end Sys2Proof.Machine
end

section
/-! The Force Table bit by bit (R38, R51): what a FORCE leaves at each word. -/

namespace Sys2Proof.Machine

/-! ## The entry of a word -/

/-- In a table in order the entry for an address is the one entry that names it (R39). -/
theorem entryFor_eq_some_iff {forces : List ForceEntry} (h : ForcesInOrder forces) {a : Addr} {e : ForceEntry} :
    entryFor forces a = some e ↔ e ∈ forces ∧ e.addr = a := by
  constructor
  · intro he
    exact ⟨List.mem_of_find?_eq_some he, by simpa using List.find?_some he⟩
  · rintro ⟨he, rfl⟩
    cases hx : entryFor forces e.addr with
    | none => simpa using List.find?_eq_none.1 hx e he
    | some x =>
      have hmem : x ∈ forces := List.mem_of_find?_eq_some hx
      have haddr : x.addr = e.addr := by simpa using List.find?_some hx
      have hnodup : (forces.map ForceEntry.addr).Nodup :=
        List.pairwise_map.2 (h.sorted.imp fun hlt => BitVec.ne_of_lt hlt)
      rw [List.inj_on_of_nodup_map hnodup hmem he haddr]

/-- Tables in order with the same entries at a word have the same entry for it. -/
theorem entryFor_congr {forces forces' : List ForceEntry} (h : ForcesInOrder forces) (h' : ForcesInOrder forces')
    {a : Addr} (hmem : ∀ e : ForceEntry, e.addr = a → (e ∈ forces' ↔ e ∈ forces)) :
    entryFor forces' a = entryFor forces a := by
  refine Option.ext fun e => ?_
  rw [entryFor_eq_some_iff h, entryFor_eq_some_iff h']
  exact and_congr_left (hmem e)

/-- An entry of the table holds some bit (R39). -/
theorem ForceEntry.Masked.exists_held {e : ForceEntry} (h : e.Masked) : ∃ i < 16, forcedAt (some e) i ≠ none := by
  obtain ⟨hbit, -⟩ := h
  by_contra hnone
  push Not at hnone
  have hclear : ∀ i < 16, e.set.getLsbD i = false ∧ e.clr.getLsbD i = false := by
    intro i hi
    have := hnone i hi
    cases hs : e.set.getLsbD i <;> cases hc : e.clr.getLsbD i <;> simp_all [forcedAt]
  have hset : e.set = 0 := BitVec.eq_of_getLsbD_eq fun i hi => by simp [(hclear i hi).1]
  have hclr : e.clr = 0 := BitVec.eq_of_getLsbD_eq fun i hi => by simp [(hclear i hi).2]
  exact hbit.elim (· hset) (· hclr)

/-- A word has an entry exactly where a bit of it is held (R39). -/
theorem entryFor_eq_none_iff {forces : List ForceEntry} (h : ForcesInOrder forces) (a : Addr) :
    entryFor forces a = none ↔ ∀ i < 16, forcedAt (entryFor forces a) i = none := by
  cases he : entryFor forces a with
  | none => simp [forcedAt]
  | some e =>
    obtain ⟨i, hi, hheld⟩ := (h.masked e (List.mem_of_find?_eq_some he)).exists_held
    simp only [reduceCtorEq, false_iff]
    exact fun hnone => hheld (hnone i hi)

/-! ## The bits of a word -/

/-- A word's bits are held as its masks say, with an entry or without (R51). -/
theorem forcedAt_masksOf (forces : List ForceEntry) (a : Addr) (i : Nat) :
    forcedAt (entryFor forces a) i = forcedAt (some ⟨a, (masksOf forces a).1, (masksOf forces a).2⟩) i := by
  unfold masksOf
  cases entryFor forces a with
  | none => simp [forcedAt]
  | some e => rfl

/-- A word given masks is held as they say (R51). -/
theorem forcedAt_putMasks_self {forces : List ForceEntry} (h : ForcesInOrder forces) (a : Addr) {set clr : Word}
    (hd : set &&& clr = 0) (i : Nat) :
    forcedAt (entryFor (putMasks forces a set clr) a) i = forcedAt (some ⟨a, set, clr⟩) i := by
  have horder := putMasks_inOrder h a hd
  by_cases hbit : set ≠ 0 ∨ clr ≠ 0
  · rw [(entryFor_eq_some_iff horder).2 ⟨mem_putMasks.2 (.inl ⟨rfl, hbit⟩), rfl⟩]
  · obtain ⟨rfl, rfl⟩ : set = 0 ∧ clr = 0 := by simpa using hbit
    have hnone : entryFor (putMasks forces a 0 0) a = none := by
      refine Option.eq_none_iff_forall_ne_some.2 fun e he => ?_
      obtain ⟨hmem, haddr⟩ := (entryFor_eq_some_iff horder).1 he
      rcases mem_putMasks.1 hmem with ⟨-, hbit'⟩ | ⟨-, hne⟩
      · exact hbit hbit'
      · exact hne haddr
    rw [hnone]
    simp [forcedAt]

/-- Every other word keeps its entry (R51). -/
theorem entryFor_putMasks_other {forces : List ForceEntry} (h : ForcesInOrder forces) {a b : Addr} {set clr : Word}
    (hd : set &&& clr = 0) (hne : b ≠ a) : entryFor (putMasks forces a set clr) b = entryFor forces b := by
  refine entryFor_congr h (putMasks_inOrder h a hd) fun e he => ?_
  rw [mem_putMasks]
  constructor
  · rintro (⟨rfl, -⟩ | ⟨hmem, -⟩)
    · exact absurd he.symm hne
    · exact hmem
  · exact fun hmem => .inr ⟨hmem, he ▸ hne⟩

/-- How a bit held one way before is held after a word record (R51): by the first of its masks that has the bit, as before
where none has it. -/
def ForceWord.holds (f : ForceWord) (i : Nat) (before : Option Bool) : Option Bool :=
  if f.fset.getLsbD i then some true else if f.fclr.getLsbD i then some false else if f.rel.getLsbD i then none else before

/-- The new masks of a word, bit by bit, where the record's masks share no bit (R50, R51). -/
theorem forcedAt_newMasks {f : ForceWord} (hf : f.disjoint = true) (a : Addr) (set clr : Word) {i : Nat} (hi : i < 16) :
    forcedAt (some ⟨a, (set ||| f.fset) &&& ~~~(f.fclr ||| f.rel), (clr ||| f.fclr) &&& ~~~(f.fset ||| f.rel)⟩) i =
      f.holds i (forcedAt (some ⟨a, set, clr⟩) i) := by
  have hsum := (ForceWord.disjoint_iff f).1 hf i hi
  obtain ⟨hsc, hr, -, -⟩ := (masks_disjoint _ _ _ _ _).1 hsum
  simp only [forcedAt, ForceWord.holds, BitVec.getLsbD_and, BitVec.getLsbD_or, BitVec.getLsbD_not, hi, decide_true,
    Bool.true_and]
  cases hs : f.fset.getLsbD i <;> cases hc : f.fclr.getLsbD i <;> cases hrel : f.rel.getLsbD i <;> simp_all

/-- The word a record names, after it (R51). -/
theorem forcedAt_applyForceWord_self {forces : List ForceEntry} (h : ForcesInOrder forces) {f : ForceWord}
    (hf : f.disjoint = true) {i : Nat} (hi : i < 16) :
    forcedAt (entryFor (applyForceWord forces f) f.addr) i = f.holds i (forcedAt (entryFor forces f.addr) i) := by
  unfold applyForceWord
  rw [forcedAt_putMasks_self h f.addr (newMasks_disjoint (masksOf_disjoint h f.addr) f.fset f.fclr f.rel),
    forcedAt_newMasks hf f.addr _ _ hi, ← forcedAt_masksOf]

theorem entryFor_applyForceWord_other {forces : List ForceEntry} (h : ForcesInOrder forces) {f : ForceWord} {a : Addr}
    (hne : f.addr ≠ a) : entryFor (applyForceWord forces f) a = entryFor forces a :=
  entryFor_putMasks_other h (newMasks_disjoint (masksOf_disjoint h f.addr) f.fset f.fclr f.rel) hne.symm

/-! ## All words of a FORCE -/

/-- A word that no record names keeps its entry (R51). -/
theorem entryFor_applyForce_other {forces : List ForceEntry} (h : ForcesInOrder forces) {ws : List ForceWord} {a : Addr}
    (hne : ∀ f ∈ ws, f.addr ≠ a) : entryFor (applyForce forces ws) a = entryFor forces a := by
  induction ws generalizing forces with
  | nil => rfl
  | cons f rest ih =>
    rw [List.forall_mem_cons] at hne
    exact (ih (applyForceWord_inOrder h f) hne.2).trans (entryFor_applyForceWord_other h hne.1)

/-- A word that one record names is held as that record says (R50, R51). -/
theorem forcedAt_applyForce_named {forces : List ForceEntry} (h : ForcesInOrder forces) {ws : List ForceWord}
    (haddrs : ws.Pairwise (fun x y => x.addr ≠ y.addr)) (hmasks : ∀ f ∈ ws, f.disjoint = true) {f : ForceWord}
    (hf : f ∈ ws) {i : Nat} (hi : i < 16) :
    forcedAt (entryFor (applyForce forces ws) f.addr) i = f.holds i (forcedAt (entryFor forces f.addr) i) := by
  induction ws generalizing forces with
  | nil => cases hf
  | cons g rest ih =>
    obtain ⟨hg, hrest⟩ := List.pairwise_cons.1 haddrs
    rw [List.forall_mem_cons] at hmasks
    have hstep := applyForceWord_inOrder h g
    rcases List.mem_cons.1 hf with rfl | hf
    · rw [← forcedAt_applyForceWord_self h hmasks.1 hi]
      exact congrArg (forcedAt · i) (entryFor_applyForce_other hstep fun x hx => (hg x hx).symm)
    · rw [← entryFor_applyForceWord_other h (hg f hf)]
      exact ih hstep hrest hmasks.2 hf

/-- Settles O43: the bits of the words named and of the others, and the order of the table. -/
theorem forceMasks : Obligations.ForceMasks := by
  rintro s ws ⟨hsorted, -, hmasked⟩ ⟨-, -, haddrs, hmasks⟩ t rfl
  have h : ForcesInOrder s.forces := ⟨hsorted, hmasked⟩
  have ht : ForcesInOrder (applyForce s.forces ws) := applyForce_inOrder h ws
  refine ⟨fun f hf i hi => ?_, fun a hne => entryFor_applyForce_other h hne, entryFor_eq_none_iff ht, ht.sorted,
    fun e he => (ht.masked e he).2⟩
  exact forcedAt_applyForce_named h haddrs (fun g hg => (ForceWord.disjoint_iff g).2 (hmasks g hg)) hf hi

end Sys2Proof.Machine
end

section
/-! The lists of the tables (R37, R57, R105): the encodings of Machine/Replies.lean in the layouts of R193. -/

namespace Sys2Proof.Machine

/-! ## Requests without parameters (R170) -/

/-- A request without parameters that comes to an answer alone replies with it. -/
theorem withoutParams_replies {i : Instr} {s : State} {c : RxChar} {code : Byte} {st : Status} {data : State → List Byte}
    (hi : exec i s = s.onRequest c code (withoutParams fun u => u.answer st (data u))) (h : s.Requests c [code]) :
    Replies i s (s.takeRequest code) code st (data (s.takeRequest code)) :=
  State.onRequest_replies hi h (if_pos rfl) rfl rfl

/-- Bytes after the code of such a request fail FORMAT. -/
theorem withoutParams_format {i : Instr} {s : State} {c : RxChar} {code : Byte} {carryOut : State → State}
    {params : List Byte} (hi : exec i s = s.onRequest c code (withoutParams carryOut)) (hp : params ≠ [])
    (h : s.Requests c (code :: params)) : Replies i s (s.takeRequest code) code .format [] :=
  State.onRequest_replies hi h (if_neg hp) rfl rfl

/-! ## The layouts of the tables (R193) -/

theorem ForceEntry.encode_eq (e : ForceEntry) :
    e.encode = field 3 e.addr.toNat ++ field 2 e.set.toNat ++ field 2 e.clr.toNat := by
  rw [field_three, field_two, field_two]; rfl

theorem forceListData_eq (forces : List ForceEntry) : forceListData forces = field 1 forces.length
    ++ forces.flatMap (fun e => field 3 e.addr.toNat ++ field 2 e.set.toNat ++ field 2 e.clr.toNat) := by
  simp only [forceListData, ← ForceEntry.encode_eq, field_one]; rfl

/-- An item in its ranges is encoded as R192 lays it out; the range of a group stride is the three bytes of its field. -/
theorem WatchItem.encode_eq_bytes {it : WatchItem} (h : it.wf = true) : it.encode = it.bytes := by
  cases it with
  | bit a b =>
    have hb : b.setWidth 8 = byteOf b.toNat := (BitVec.ofNat_toNat 8 b).symm
    simp only [WatchItem.encode, WatchItem.bytes, field_one, field_three, hb]; rfl
  | word a => simp only [WatchItem.bytes, field_one, field_three]; rfl
  | pair a => simp only [WatchItem.bytes, field_one, field_three]; rfl
  | block a n st => simp only [WatchItem.bytes, field_one, field_three, field_two_ofNat]; rfl
  | grid a n st g gs =>
    have hgs : gs ≤ 0xFFFFF := by
      simp only [WatchItem.wf, Bool.and_eq_true, decide_eq_true_eq] at h
      exact h.2
    simp only [WatchItem.bytes, field_one, field_three, field_two_ofNat, field_three_ofNat gs hgs]; rfl

theorem Watch.listData_eq {w : Watch} (h : ∀ it ∈ w.items, it.wf = true) : w.listData = field 2 w.generation.toNat
    ++ codeIn modes w.mode ++ field 1 w.items.length ++ field 2 w.elements.length ++ w.items.flatMap WatchItem.bytes := by
  have hitems : w.items.flatMap WatchItem.encode = w.items.flatMap WatchItem.bytes :=
    List.flatMap_congr fun it hit => WatchItem.encode_eq_bytes (h it hit)
  rw [Watch.listData, hitems, field_two, codeIn_modes, field_one, field_two_ofNat, List.append_assoc (bytes2 _)]; rfl

/-- A region record in the layout of R193. -/
def Region.layout (n : Nat) (r : Region) : List Byte :=
  field 1 n ++ field 1 (r.enabled.toNat + 2 * r.guard.toNat) ++ field 3 r.base.toNat ++ field 3 r.limit.toNat
    ++ codeIn classes r.cls

theorem Region.encode_eq (n : Nat) (r : Region) : r.encode n = r.layout n := by
  have hflags : (if r.enabled then 0x01 else 0) ||| (if r.guard then 0x02 else 0)
      = byteOf (r.enabled.toNat + 2 * r.guard.toNat) := by
    cases r.enabled <;> cases r.guard <;> rfl
  rw [Region.encode, Region.layout, hflags, field_one, field_one, field_three, field_three, codeIn_classes]; rfl

/-- The records from an index upward, each in its layout under its own number. -/
theorem encodeRegions_eq (k : Nat) (regions : List Region) : encodeRegions k regions =
    (List.range regions.length).flatMap (fun n => (regions[n]?.toList).flatMap (fun r => r.layout (k + n))) := by
  induction regions generalizing k with
  | nil => rfl
  | cons r rest ih =>
    have hnext : ∀ n, k + 1 + n = k + (n + 1) := fun n => by omega
    rw [encodeRegions, ih, Region.encode_eq, List.length_cons, List.range_succ_eq_map, List.flatMap_cons, List.flatMap_map]
    simp [hnext]

/-- Settles O35: each list is its table in the layout of R193, and bytes after the code fail FORMAT. -/
theorem tablesListed : Obligations.TablesListed := by
  intro s c
  refine ⟨fun h => ?_, fun h hwatch => ?_, fun h hregions => ?_, fun params hp =>
    ⟨withoutParams_format rfl hp, withoutParams_format rfl hp, withoutParams_format rfl hp⟩⟩
  · have hr := withoutParams_replies (i := .forceList c) (data := fun u => forceListData u.forces) rfl h
    rwa [State.takeRequest_forces, forceListData_eq] at hr
  · obtain ⟨-, -, -, hitems, -, -⟩ := hwatch
    have hr := withoutParams_replies (i := .watchList c) (data := fun u => u.watch.listData) rfl h
    rwa [State.takeRequest_watch, Watch.listData_eq fun it hit => (hitems it hit).1] at hr
  · obtain ⟨hlength, -⟩ := hregions
    have hr := withoutParams_replies (i := .regionList c) (data := fun u => encodeRegions 0 u.regions) rfl h
    rw [State.takeRequest_regions, encodeRegions_eq, hlength] at hr
    simpa only [Region.layout, Nat.zero_add] using hr

end Sys2Proof.Machine
end

section
/-! FORCE (R50 to R52, R178): its checks in their order and its commits, where the queue is within its capacity (R75), and a
state beyond that capacity in which a FORCE without commits is not refused. -/

namespace Sys2Proof.Machine

/-! ## The classes a FORCE judges (R25, R41) -/

theorem classAt_toNat (regions : List Region) (a : Addr) : classAt regions a.toNat = (lookup regions a).cls := by
  rw [classAt, BitVec.ofNat_toNat, BitVec.setWidth_eq]

theorem Classification.forcible_eq_false_iff (k : Classification) :
    k.forcible = false ↔ k.cls = none ∨ k.cls = some .program ∨ k.cls = some .absent := by
  unfold Classification.forcible
  cases k.cls with
  | none => simp
  | some c => cases c <;> simp [RegionClass.forcible]

theorem Classification.pinned_iff (k : Classification) :
    k.pinned = true ↔ k.cls ∈ [some .output, some .work, some .hold] := by
  unfold Classification.pinned
  cases k.cls with
  | none => simp
  | some c => cases c <;> simp [RegionClass.pinned]

/-- The RANGE check: some word is unmapped (R26). -/
theorem any_isUnmapped_iff (regions : List Region) (ws : List ForceWord) :
    ws.any (fun f => (lookup regions f.addr).isUnmapped) = true ↔ ∃ f ∈ ws, classAt regions f.addr.toNat = none := by
  simp only [List.any_eq_true, Classification.isUnmapped, decide_eq_true_eq, classAt_toNat]

/-- The CLASS check, where RANGE has passed: some word is of class PROGRAM or ABSENT (R25). -/
theorem any_not_forcible_iff {regions : List Region} {ws : List ForceWord}
    (hmapped : ∀ f ∈ ws, classAt regions f.addr.toNat ≠ none) :
    ws.any (fun f => !(lookup regions f.addr).forcible) = true
      ↔ ∃ f ∈ ws, classAt regions f.addr.toNat = some .program ∨ classAt regions f.addr.toNat = some .absent := by
  simp only [List.any_eq_true, Bool.not_eq_true', Classification.forcible_eq_false_iff, ← classAt_toNat]
  exact exists_congr fun f => and_congr_right fun hf => or_iff_right (hmapped f hf)

/-! ## The commits (R52) -/

/-- The word is of a pinned class or has a pulse bit. -/
def ForceWord.commits (regions : List Region) (f : ForceWord) : Bool :=
  decide (classAt regions f.addr.toNat ∈ [some .output, some .work, some .hold] ∨ f.pset ≠ 0 ∨ f.pclr ≠ 0)

/-- The MODIFY of a word's pulse masks. -/
def ForceWord.commit (f : ForceWord) : Operation := ⟨.modify f.pset f.pclr, f.addr, .force, false, none, false⟩

/-- The commits of a FORCE. -/
def forceCommits (regions : List Region) (ws : List ForceWord) : List Operation :=
  (ws.filter (ForceWord.commits regions)).map ForceWord.commit

theorem forceOp_eq (regions : List Region) (f : ForceWord) :
    forceOp regions f = if f.commits regions then some f.commit else none := by
  have hc : ((lookup regions f.addr).pinned || f.pset ≠ 0 || f.pclr ≠ 0) = f.commits regions := by
    rw [Bool.eq_iff_iff, ForceWord.commits, Bool.or_eq_true, Bool.or_eq_true, Classification.pinned_iff, classAt_toNat,
      decide_eq_true_eq, decide_eq_true_eq, decide_eq_true_eq, or_assoc]
  rw [forceOp, hc]; rfl

theorem filterMap_forceOp (regions : List Region) (ws : List ForceWord) :
    ws.filterMap (forceOp regions) = forceCommits regions ws := by
  unfold forceCommits
  induction ws with
  | nil => rfl
  | cons f rest ih =>
    have hf := forceOp_eq regions f
    cases hc : f.commits regions with
    | true => rw [List.filterMap_cons_some (hf.trans (if_pos hc)), List.filter_cons_of_pos hc, List.map_cons, ih]
    | false =>
      have hc : ¬ f.commits regions = true := Bool.eq_false_iff.1 hc
      rw [List.filterMap_cons_none (hf.trans (if_neg hc)), List.filter_cons_of_neg hc, ih]

/-! ## Queueing keeps the turn -/

/-- The examination of the record leaves the request code, and the lease or the lease that follows the turn (R83). -/
theorem State.examineRecord_turn (s : State) : s.examineRecord.exch.code = s.exch.code
    ∧ (s.examineRecord.lease = s.lease ∨ s.examineRecord.lease = s.lease.follow .sending) := by
  unfold State.examineRecord
  split
  · exact ⟨rfl, .inr rfl⟩
  · exact ⟨rfl, .inl rfl⟩

theorem State.enqueue_turn (s : State) (new : List Operation) : (s.enqueue new).exch.code = s.exch.code
    ∧ ((s.enqueue new).lease = s.lease ∨ (s.enqueue new).lease = s.lease.follow .sending) := by
  unfold State.enqueue
  obtain ⟨o, c, b, h⟩ := State.settleHead_changes { s with ops := s.ops ++ new }
  obtain ⟨b', m, o', h'⟩ := State.claimArrives_changes { s with ops := o, completion := c, arb := b } s.arb
  rw [h]
  dsimp only at h' ⊢
  rw [h']
  exact State.examineRecord_turn _

/-- A request that is answered after it has queued its operations (R75). -/
theorem State.onRequest_replies_enqueued {i : Instr} {s v : State} {c : RxChar} {code : Byte} {params : List Byte}
    {carryOut : List Byte → State → State} {new : List Operation} {st : Status} {data : List Byte}
    (hi : exec i s = s.onRequest c code carryOut) (h : s.Requests c (code :: params))
    (hv : carryOut params (s.takeRequest code) = (v.enqueue new).answer st data)
    (hcode : v.exch = (s.takeRequest code).exch) (hlease : v.lease = (s.takeRequest code).lease) :
    Replies i s (v.enqueue new) code st data := by
  obtain ⟨hsame, hturn⟩ := v.enqueue_turn new
  have hfollow : v.lease.follow .sending = v.lease := by rw [hlease, State.takeRequest_follow]
  rw [hfollow, or_self] at hturn
  refine ⟨_, ?_, State.answer_answers _ code st data ?_ ?_⟩
  · rw [hi, State.onRequest_requests s c code params carryOut h, hv]
  · rw [hsame, hcode, State.takeRequest_code]
  · rw [hturn, hfollow]

/-! ## FORCE -/

/-- FORCE of words as R50 has them, on a request taken: the checks that follow FORMAT read the state it was taken from. -/
theorem doForce_taken {params : List Byte} {ws : List ForceWord} (h : parseForce params = some ws) (s : State) :
    doForce params (s.takeRequest 0x20) =
      let u := s.takeRequest 0x20
      if s.lease.level = .view then u.answer .level []
      else if ws.any (fun f => (lookup s.regions f.addr).isUnmapped) then u.answer .range []
      else if ws.any (fun f => !(lookup s.regions f.addr).forcible) then u.answer .cls []
      else if 32 < (applyForce s.forces ws).length then u.answer .full []
      else if 32 - s.ops.length < (forceCommits s.regions ws).length then u.answer .queueFull []
      else (({ u with forces := applyForce s.forces ws } : State).enqueue (forceCommits s.regions ws)).answer .ok [] := by
  simp only [doForce, h, State.freePlaces, State.takeRequest_level, State.takeRequest_regions, State.takeRequest_forces,
    State.takeRequest_ops, filterMap_forceOp, Config.forceCapacity, Config.queueCapacity]

/-- What O42 says of one state. -/
def ForceTakenAt (s : State) : Prop :=
  ∀ (c : RxChar) (params : List Byte), s.Requests c (0x20 :: params) → ∀ u, u = s.takeRequest 0x20 →
    (∀ ws, ForceWellFormed ws → params = forceLayout ws →
      let cls : ForceWord → Option RegionClass := fun f => classAt s.regions f.addr.toNat
      let table := applyForce s.forces ws
      let commits := forceCommits s.regions ws
      (s.lease.level = .view → Replies (.force c) s u 0x20 .level [])
      ∧ (s.lease.level ≠ .view →
        ((∃ f ∈ ws, cls f = none) → Replies (.force c) s u 0x20 .range [])
        ∧ ((∀ f ∈ ws, cls f ≠ none) →
          ((∃ f ∈ ws, cls f = some .program ∨ cls f = some .absent) → Replies (.force c) s u 0x20 .cls [])
          ∧ ((∀ f ∈ ws, cls f ≠ some .program ∧ cls f ≠ some .absent) →
            (32 < table.length → Replies (.force c) s u 0x20 .full [])
            ∧ (table.length ≤ 32 →
              (32 < s.ops.length + commits.length → Replies (.force c) s u 0x20 .queueFull [])
              ∧ (s.ops.length + commits.length ≤ 32 →
                  Replies (.force c) s ({ u with forces := table }.enqueue commits) 0x20 .ok []))))))
    ∧ ((∀ ws, ForceWellFormed ws → params ≠ forceLayout ws) → Replies (.force c) s u 0x20 .format [])

theorem forceTaken_iff : Obligations.ForceTaken ↔ ∀ s, ForceTakenAt s := Iff.rfl

/-- FORCE is judged and carried out as O42 says wherever the queue is within its capacity, as State.queueOk has it. -/
theorem forceTakenAt_of_queue_within_capacity {s : State} (hops : s.ops.length ≤ 32) : ForceTakenAt s := by
  rintro c params hreq u rfl
  refine ⟨fun ws hwf hlayout => ?_, fun hnone => ?_⟩
  · have hd := doForce_taken ((parseForce_some params ws).2 ⟨hwf, hlayout⟩) s
    have hrange := any_isUnmapped_iff s.regions ws
    refine ⟨fun hview => ?_, fun hview => ⟨fun hunmapped => ?_, fun hmapped => ?_⟩⟩
    · exact State.onRequest_replies rfl hreq (hd.trans (if_pos hview)) rfl rfl
    · refine State.onRequest_replies rfl hreq (hd.trans ?_) rfl rfl
      rw [if_neg hview, if_pos (hrange.2 hunmapped)]
    · have hcls := any_not_forcible_iff hmapped
      have hmapped : ¬ ws.any (fun f => (lookup s.regions f.addr).isUnmapped) = true :=
        fun h => (hrange.1 h).elim fun f hf => hmapped f hf.1 hf.2
      rw [if_neg hview, if_neg hmapped] at hd
      refine ⟨fun hbarred => ?_, fun hfree => ?_⟩
      · exact State.onRequest_replies rfl hreq (hd.trans (if_pos (hcls.2 hbarred))) rfl rfl
      · have hfree : ¬ ws.any (fun f => !(lookup s.regions f.addr).forcible) = true :=
          fun h => (hcls.1 h).elim fun f hf => hf.2.elim (hfree f hf.1).1 (hfree f hf.1).2
        rw [if_neg hfree] at hd
        refine ⟨fun hfull => ?_, fun hroom => ⟨fun hfull => ?_, fun hplaces => ?_⟩⟩
        · exact State.onRequest_replies rfl hreq (hd.trans (if_pos hfull)) rfl rfl
        · refine State.onRequest_replies rfl hreq (hd.trans ?_) rfl rfl
          rw [if_neg (Nat.not_lt.2 hroom), if_pos (by omega)]
        · refine State.onRequest_replies_enqueued rfl hreq (hd.trans ?_) rfl rfl
          rw [if_neg (Nat.not_lt.2 hroom), if_neg (by omega)]
  · have hp : parseForce params = none := Option.eq_none_iff_forall_ne_some.2 fun ws hp => by
      obtain ⟨hwf, hlayout⟩ := (parseForce_some params ws).1 hp
      exact hnone ws hwf hlayout
    exact State.onRequest_replies rfl hreq (by rw [doForce, hp]) rfl rfl

/-! ## A queue beyond its capacity -/

/-- A FORCE record of one INPUT word without a pulse bit: it changes the table and needs no commit. -/
def uncommittedForce : ForceWord := ⟨0x00012, 0x0001, 0, 0, 0, 0⟩

/-- The payload of the REQUEST that carries it. -/
def uncommittedPayload : List Byte := 0x20 :: forceLayout [uncommittedForce]

/-- The fields of that REQUEST's frame before its check byte, to node 0. -/
def uncommittedFrame : List Byte := 0x00 :: 0x10 :: byteOf uncommittedPayload.length :: uncommittedPayload

/-- Its check byte. -/
def uncommittedCheck : RxChar := RxChar.ofByte (0 - byteSum uncommittedFrame)

/-- A queue of 33 operations, outside State.queueOk (R75), at level TUNE over INPUT words, at the check byte of that REQUEST. -/
def overfullQueue : State :=
  { State.reset with
    regions := ⟨true, 0, 0xFFFFF, .input, false⟩ :: List.replicate 7 ⟨false, 0, 0, .input, false⟩
    lease := ⟨.tune, some 600, 60000000, .running⟩
    ops := List.replicate 33 ⟨.write 0, 0, .poke, false, none, false⟩
    rx := ⟨.assembling ⟨uncommittedFrame, false, false⟩, false⟩
    exch := { Exchange.reset with state := .receiving } }

/-- Refutes O42: with 33 operations queued the statement asks for QUEUE_FULL, and a FORCE without commits, which asks for no
free place, is answered OK. No hypothesis of the statement keeps the queue within its 32 places; where it is within them
the statement holds, by forceTakenAt_of_queue_within_capacity. -/
theorem not_forceTaken : ¬ Obligations.ForceTaken := by
  intro h
  have hreq : overfullQueue.Requests uncommittedCheck uncommittedPayload := by decide
  have hok : ∃ t, exec (.force uncommittedCheck) overfullQueue = .next t
      ∧ t.exch.reply = some [0x20, Status.ok.code] :=
    ⟨_, State.onRequest_requests overfullQueue uncommittedCheck 0x20 _ doForce hreq, by decide⟩
  obtain ⟨hwords, -⟩ := h overfullQueue uncommittedCheck (forceLayout [uncommittedForce]) hreq _ rfl
  obtain ⟨-, hlevel⟩ := hwords [uncommittedForce] (by decide) rfl
  obtain ⟨-, hmapped⟩ := hlevel (by decide)
  obtain ⟨-, hforcible⟩ := hmapped (by decide)
  obtain ⟨-, hroom⟩ := hforcible (by decide)
  obtain ⟨hfull, -⟩ := hroom (by decide)
  obtain ⟨t, hexec, rfl⟩ := hfull (by decide)
  obtain ⟨t, hexec', hreply⟩ := hok
  cases hexec.symm.trans hexec'
  exact absurd hreply (by decide)

end Sys2Proof.Machine
end

section
/-! The Lease Timer and the Operation Queue in order (R59, R61, R65, R74 to R76): what State.leaseOk and State.queueOk say,
and what the parts they speak of keep of it. -/

namespace Sys2Proof.Machine

/-! ## The lease (R59, R61, R65) -/

/-- What holds of a lease apart from its condition: at VIEW there is none and the Force Table is empty, above VIEW it has a
duration and a remaining time of at most that duration. -/
structure Lease.Sound (l : Lease) (forces : List ForceEntry) : Prop where
  view : l.level = .view → l = Lease.view ∧ forces = []
  above : l.level ≠ .view → ∃ d, l.granted = some d ∧ 1 ≤ d ∧ d ≤ 600 ∧ l.remaining ≤ d * 100000

theorem Lease.sound_view : Lease.view.Sound [] := ⟨fun _ => ⟨rfl, rfl⟩, fun h => absurd rfl h⟩

/-- A lease of TUNE or SERVICE. -/
theorem Lease.sound_of_above {l : Lease} {d : Nat} (hl : l.level ≠ .view) (hg : l.granted = some d) (h1 : 1 ≤ d)
    (h2 : d ≤ 600) (hr : l.remaining ≤ d * 100000) (forces : List ForceEntry) : l.Sound forces :=
  ⟨fun h => absurd h hl, fun _ => ⟨d, hg, h1, h2, hr⟩⟩

/-- The condition apart, a lease at VIEW stands as after reset whichever state it follows. -/
theorem Lease.Sound.follow {l : Lease} {forces : List ForceEntry} (h : l.Sound forces) (e : ExchState) :
    (l.follow e).Sound forces :=
  ⟨fun hv => by obtain ⟨rfl, hf⟩ := h.view hv; exact ⟨rfl, hf⟩, h.above⟩

theorem Lease.Sound.renew {l : Lease} {forces : List ForceEntry} (h : l.Sound forces) : l.renew.Sound forces := by
  unfold Lease.renew
  split
  · exact h
  · rename_i hl
    obtain ⟨d, hg, h1, h2, -⟩ := h.above hl
    refine ⟨fun hv => absurd hv hl, fun _ => ⟨d, hg, h1, h2, ?_⟩⟩
    show l.granted.getD 0 * 100000 ≤ _
    rw [hg]; exact Nat.le_refl _

/-- Release all leaves a lease as sound as it was (R54, R61). -/
theorem Lease.Sound.releaseAll {l : Lease} {forces : List ForceEntry} (h : l.Sound forces) : l.Sound [] :=
  ⟨fun hv => ⟨(h.view hv).1, rfl⟩, h.above⟩

/-- Above VIEW the Force Table may hold what it will (R61). -/
theorem Lease.Sound.setForces {l : Lease} {forces : List ForceEntry} (h : l.Sound forces) (hl : l.level ≠ .view)
    (forces' : List ForceEntry) : l.Sound forces' :=
  ⟨fun hv => absurd hv hl, h.above⟩

theorem Lease.renew_follow (l : Lease) (e : ExchState) : l.renew.follow e = (l.follow e).renew := by
  by_cases hl : l.level = .view <;> simp [Lease.renew, Lease.follow, hl]

/-- A lease in order is sound, and its condition follows the exchange state. -/
theorem State.leaseOk_iff (s : State) :
    s.leaseOk = true ↔ s.lease.Sound s.forces ∧ s.lease.follow s.exch.state = s.lease := by
  have hfollow : s.lease.follow s.exch.state = s.lease ↔ s.lease.cond =
      if s.lease.level = .view then .stopped else if s.exch.state.holdsTurn then .paused else .running :=
    ⟨fun h => (congrArg Lease.cond h).symm, fun h => Lease.ext rfl rfl rfl h.symm⟩
  rw [hfollow]
  unfold State.leaseOk
  cases hl : s.lease.level with
  | view =>
    simp only [Bool.and_eq_true, decide_eq_true_eq, if_true]
    constructor
    · rintro ⟨hv, hf⟩
      rw [hv, hf]; exact ⟨Lease.sound_view, rfl⟩
    · rintro ⟨hs, -⟩
      exact hs.view hl
  | tune | service =>
    have hne : s.lease.level ≠ .view := by rw [hl]; decide
    simp only [reduceCtorEq, if_false]
    constructor
    · intro h
      split at h
      · cases h
      · rename_i d hd
        simp only [Bool.and_eq_true, decide_eq_true_eq] at h
        obtain ⟨⟨⟨h1, h2⟩, hr⟩, hc⟩ := h
        exact ⟨Lease.sound_of_above hne hd h1 h2 hr _, hc⟩
    · rintro ⟨hs, hc⟩
      obtain ⟨d, hd, h1, h2, hr⟩ := hs.above hne
      simp only [hd, Bool.and_eq_true, decide_eq_true_eq]
      exact ⟨⟨⟨h1, h2⟩, hr⟩, hc⟩

/-! ## The queue (R74 to R76) -/

/-- An operation that may stand at the head: its fields fit, it has been looked up and is not ABSENT, and only an ACTIVE one
has its word to be dropped. -/
structure Operation.Leads (o : Operation) : Prop where
  wf : o.wf = true
  looked_up : o.cls.any (fun c => !c.isAbsent) = true
  dropped : o.dropped = true → o.active = true

/-- A queue in order: within its capacity, a head that may lead, and WAITING operations behind it. -/
structure Queued (ops : List Operation) : Prop where
  room : ops.length ≤ 32
  order : ∀ o rest, ops = o :: rest → o.Leads ∧ ∀ x ∈ rest, x.behind = true

theorem State.queueOk_iff (s : State) : s.queueOk = true ↔ Queued s.ops := by
  unfold State.queueOk
  cases s.ops with
  | nil => exact iff_of_true rfl ⟨Nat.zero_le _, nofun⟩
  | cons o rest =>
    simp only [Bool.and_eq_true, decide_eq_true_eq, List.all_eq_true, Bool.or_eq_true, Bool.not_eq_true']
    constructor
    · rintro ⟨hlen, ⟨⟨hwf, hcls⟩, hdrop⟩, hrest⟩
      refine ⟨hlen, ?_⟩
      rintro _ _ ⟨⟩
      exact ⟨⟨hwf, hcls, fun hd => hdrop.resolve_left (by simp [hd])⟩, hrest⟩
    · rintro ⟨hlen, horder⟩
      obtain ⟨⟨hwf, hcls, hdrop⟩, hrest⟩ := horder o rest rfl
      refine ⟨hlen, ⟨⟨hwf, hcls⟩, ?_⟩, hrest⟩
      cases hd : o.dropped with
      | false => exact .inl rfl
      | true => exact .inr (hdrop hd)

theorem Queued.nil : Queued [] := ⟨Nat.zero_le _, nofun⟩

theorem Queued.cons {o : Operation} {rest : List Operation} (hlen : rest.length < 32) (ho : o.Leads)
    (hrest : ∀ x ∈ rest, x.behind = true) : Queued (o :: rest) :=
  ⟨hlen, by rintro _ _ ⟨⟩; exact ⟨ho, hrest⟩⟩

/-- What stands behind an operation that leads: it is WAITING, not looked up, and its word is not dropped. -/
theorem Operation.behind_iff (o : Operation) :
    o.behind = true ↔ o.wf = true ∧ o.active = false ∧ o.cls = none ∧ o.dropped = false := by
  simp only [Operation.behind, Bool.and_eq_true, Bool.not_eq_true', Option.isNone_iff_eq_none, and_assoc]

theorem Operation.Leads.cls_ne_none {o : Operation} (h : o.Leads) : o.cls ≠ none := fun hn => by
  have := h.looked_up
  rw [hn] at this; cases this

/-- The head becomes ACTIVE (R76). -/
theorem Queued.activate {o : Operation} {rest : List Operation} (h : Queued (o :: rest)) :
    Queued ({ o with active := true } :: rest) := by
  obtain ⟨ho, hrest⟩ := h.order o rest rfl
  exact .cons h.room ⟨ho.wf, ho.looked_up, fun _ => rfl⟩ hrest

/-- The head lookup gives WAITING operations a head that may lead (R76). -/
theorem queued_settleOps (regions : List Region) {ops : List Operation} (hlen : ops.length ≤ 32)
    (h : ∀ x ∈ ops, x.behind = true) (c : Option Completion) : Queued (settleOps regions ops c).1 := by
  induction ops generalizing c with
  | nil => exact .nil
  | cons o rest ih =>
    rw [List.forall_mem_cons] at h
    obtain ⟨ho, hrest⟩ := h
    obtain ⟨hwf, -, hcls, hdrop⟩ := (Operation.behind_iff o).1 ho
    unfold settleOps
    rw [hcls]
    dsimp only
    split
    · exact ih (Nat.le_of_succ_le hlen) hrest _
    · rename_i habsent
      refine .cons hlen ⟨hwf, ?_, fun hd => ?_⟩ hrest
      · simpa using habsent
      · rw [show o.dropped = true from hd] at hdrop; cases hdrop

/-- The head lookup leaves a queue in order as it is: its head has been looked up. -/
theorem Queued.settleOps {ops : List Operation} (h : Queued ops) (regions : List Region) (c : Option Completion) :
    settleOps regions ops c = (ops, c) := by
  cases ops with
  | nil => rfl
  | cons o rest => exact settleOps_of_looked_up (h.order o rest rfl).1.cls_ne_none

theorem State.settleHead_ops (s : State) : s.settleHead.ops = (settleOps s.regions s.ops s.completion).1 := rfl

/-- A queue whose head has just left: WAITING operations alone, whose first is looked up. -/
theorem State.queued_settleHead {s : State} (hlen : s.ops.length ≤ 32) (h : ∀ x ∈ s.ops, x.behind = true) :
    Queued s.settleHead.ops :=
  queued_settleOps s.regions hlen h s.completion

theorem Queued.settleHead {s : State} (h : Queued s.ops) : Queued s.settleHead.ops := by
  rw [State.settleHead_ops, h.settleOps]
  exact h

/-- Operations within the free places join the tail, and where the queue was empty the first is looked up (R75, R76). -/
theorem Queued.join {s : State} (h : Queued s.ops) {new : List Operation} (hroom : new.length ≤ s.freePlaces)
    (hnew : ∀ x ∈ new, x.behind = true) : Queued ({ s with ops := s.ops ++ new } : State).settleHead.ops := by
  have hlen : (s.ops ++ new).length ≤ 32 := by
    have hcap : s.freePlaces = 32 - s.ops.length := rfl
    have := h.room
    rw [List.length_append]; omega
  cases hops : s.ops with
  | nil =>
    rw [hops] at hlen
    exact State.queued_settleHead (s := { s with ops := [] ++ new }) hlen hnew
  | cons o rest =>
    rw [hops] at hlen
    obtain ⟨ho, hrest⟩ := h.order o rest hops
    exact Queued.settleHead (s := { s with ops := o :: (rest ++ new) })
      (.cons hlen ho fun x hx => (List.mem_append.1 hx).elim (hrest x) (hnew x))

/-- The mark that the word of an abandoned READ is dropped (R86, log entry 13). -/
def Operation.abandon (o : Operation) : Operation := if o.origin = .peek then { o with dropped := true } else o

theorem Operation.abandon_of_origin {o : Operation} (h : o.origin ≠ .peek) : o.abandon = o := if_neg h

theorem Operation.Leads.abandon {o : Operation} (h : o.Leads) (hact : o.active = true) : o.abandon.Leads := by
  unfold Operation.abandon
  split
  · exact ⟨h.wf, h.looked_up, fun _ => hact⟩
  · exact h

/-- An operation that stays in the queue when a PEEK is abandoned: not one of its WAITING READs (R86). -/
def Operation.stays (o : Operation) : Bool := o.active || o.origin ≠ .peek

/-- The queue when a PEEK is abandoned (R86). -/
def abandonPeek (ops : List Operation) : List Operation := (ops.filter Operation.stays).map Operation.abandon

theorem abandonPeek_cons_of_stays {o : Operation} (h : o.stays = true)
    (rest : List Operation) : abandonPeek (o :: rest) = o.abandon :: abandonPeek rest := by
  rw [abandonPeek, List.filter_cons_of_pos h]; rfl

theorem abandonPeek_cons_of_leaves {o : Operation} (h : ¬ o.stays = true)
    (rest : List Operation) : abandonPeek (o :: rest) = abandonPeek rest := by
  rw [abandonPeek, List.filter_cons_of_neg h]; rfl

theorem abandonPeek_length_le (ops : List Operation) : (abandonPeek ops).length ≤ ops.length := by
  rw [abandonPeek, List.length_map]
  exact List.length_filter_le _ _

/-- Behind the head none of the PEEK's READs stays, and every other operation stays as it is. -/
theorem behind_of_mem_abandonPeek {ops : List Operation} (h : ∀ x ∈ ops, x.behind = true) :
    ∀ x ∈ abandonPeek ops, x.behind = true := by
  intro x hx
  obtain ⟨o, ho, rfl⟩ := List.mem_map.1 hx
  obtain ⟨hmem, hstays⟩ := List.mem_filter.1 ho
  obtain ⟨-, hact, -⟩ := (Operation.behind_iff o).1 (h o hmem)
  rw [Operation.stays, hact, Bool.false_or, decide_eq_true_eq] at hstays
  rw [Operation.abandon_of_origin hstays]
  exact h o hmem

/-- An abandoned PEEK leaves the queue in order (R86). -/
theorem Queued.abandonPeek {s : State} (h : Queued s.ops) (c : Option Completion) :
    Queued ({ s with ops := abandonPeek s.ops, completion := c } : State).settleHead.ops := by
  have hlen := (abandonPeek_length_le s.ops).trans h.room
  cases hops : s.ops with
  | nil => exact .nil
  | cons o rest =>
    rw [hops] at hlen
    obtain ⟨ho, hrest⟩ := h.order o rest hops
    by_cases hstays : o.stays = true
    · rw [abandonPeek_cons_of_stays hstays] at hlen ⊢
      refine Queued.settleHead (s := { s with ops := _, completion := c }) (.cons hlen ?_ (behind_of_mem_abandonPeek hrest))
      by_cases hpeek : o.origin = .peek
      · exact ho.abandon (by simpa [Operation.stays, hpeek] using hstays)
      · rw [Operation.abandon_of_origin hpeek]; exact ho
    · rw [abandonPeek_cons_of_leaves hstays] at hlen ⊢
      exact State.queued_settleHead (s := { s with ops := Machine.abandonPeek rest, completion := c }) hlen
        (behind_of_mem_abandonPeek hrest)

/-- The ACTIVE operations of a queue in order: its head or none (R74). -/
theorem Queued.filter_active {ops : List Operation} (h : Queued ops) :
    ops.filter Operation.active = [] ∨ ∃ o, o.Leads ∧ ops.filter Operation.active = [o] := by
  cases ops with
  | nil => exact .inl rfl
  | cons o rest =>
    obtain ⟨ho, hrest⟩ := h.order o rest rfl
    have hnone : rest.filter Operation.active = [] := List.filter_eq_nil_iff.2 fun x hx => by
      obtain ⟨-, hact, -⟩ := (Operation.behind_iff x).1 (hrest x hx)
      simp [hact]
    rw [List.filter_cons, hnone]
    split
    · exact .inr ⟨o, ho, rfl⟩
    · exact .inl rfl

/-! ## The operations of the requests (R52, R82, R84) -/

theorem behind_pokeOps (a : Addr) (ws : List Word) : ∀ x ∈ pokeOps a ws, x.behind = true := by
  induction ws generalizing a with
  | nil => nofun
  | cons w rest ih => exact List.forall_mem_cons.2 ⟨rfl, ih (a + 1)⟩

theorem pokeOps_length (a : Addr) (ws : List Word) : (pokeOps a ws).length = ws.length := by
  induction ws generalizing a with
  | nil => rfl
  | cons w rest ih => rw [pokeOps, List.length_cons, List.length_cons, ih]

/-- The pulse masks of a word that meets R50 share no bit. -/
theorem ForceWord.pulses_disjoint {f : ForceWord} (h : f.disjoint = true) : f.pset &&& f.pclr = 0 := by
  simp only [ForceWord.disjoint, Bool.and_eq_true, decide_eq_true_eq, and_eq_zero_iff, BitVec.getLsbD_or] at h
  obtain ⟨-, hpclr⟩ := h
  refine (and_eq_zero_iff _ _).2 fun i hi => ?_
  have hbit := hpclr i hi
  rw [Bool.and_or_distrib_right, Bool.or_eq_false_iff] at hbit
  exact hbit.2

theorem behind_forceOp {regions : List Region} {f : ForceWord} (h : f.disjoint = true) {o : Operation}
    (ho : forceOp regions f = some o) : o.behind = true := by
  unfold forceOp at ho
  split at ho
  · cases ho
    simpa [Operation.behind, Operation.wf] using ForceWord.pulses_disjoint h
  · cases ho

end Sys2Proof.Machine
end

section
/-! The Watch List in order (R91 to R94): what State.WatchOk says by the items alone. -/

namespace Sys2Proof.Machine

/-! ## The expansion (R93) -/

theorem WatchItem.addresses_length (it : WatchItem) : it.addresses.length = it.elementCount := by
  cases it with
  | bit | word | pair => rfl
  | block b n st => simp [WatchItem.addresses, WatchItem.elementCount]
  | grid b n st g gs => simp [WatchItem.addresses, WatchItem.elementCount, List.length_flatMap]

theorem expandFrom_length (k : Nat) (items : List WatchItem) :
    (expandFrom k items).length = (items.map WatchItem.elementCount).sum := by
  induction items generalizing k with
  | nil => rfl
  | cons it rest ih =>
    rw [expandFrom, List.length_append, List.length_map, it.addresses_length, ih, List.map_cons, List.sum_cons]

/-- What holds of the words of all elements holds of all words of the items. -/
theorem forall_mem_expandFrom (P : Addr → Prop) (k : Nat) (items : List WatchItem) :
    (∀ e ∈ expandFrom k items, P e.addr) ↔ ∀ it ∈ items, ∀ n ∈ it.addresses, P (BitVec.ofNat 20 n) := by
  induction items generalizing k with
  | nil => exact iff_of_true nofun nofun
  | cons it rest ih =>
    rw [expandFrom, List.forall_mem_append, List.forall_mem_cons, ih, List.forall_mem_map]

/-! ## The list by its items (R91, R92, R94) -/

/-- An item that may stand in the list: its fields in their ranges and its words in enabled regions of the address space. -/
structure WatchItem.Fits (regions : List Region) (it : WatchItem) : Prop where
  wf : it.wf = true
  in_space : ∀ n ∈ it.addresses, n ≤ 0xFFFFF
  mapped : ∀ n ∈ it.addresses, (lookup regions (BitVec.ofNat 20 n)).isUnmapped = false

/-- A list in order, in which the elements are told by the items. -/
theorem State.watchOk_iff (s : State) : s.WatchOk ↔
    s.watch.items.length ≤ 64 ∧ (s.watch.items.map WatchItem.elementCount).sum ≤ 256
      ∧ s.watch.elements = expandItems s.watch.items ∧ (∀ it ∈ s.watch.items, it.Fits s.regions)
      ∧ (s.watch.items = [] → s.watch.mode = .off) := by
  constructor
  · rintro ⟨hitems, hlen, helems, hwf, hmapped, hoff⟩
    rw [helems, expandItems, expandFrom_length] at hlen
    rw [helems, expandItems, forall_mem_expandFrom fun a => (lookup s.regions a).isUnmapped = false] at hmapped
    exact ⟨hitems, hlen, helems, fun it h => ⟨(hwf it h).1, (hwf it h).2, hmapped it h⟩, hoff⟩
  · rintro ⟨hitems, hlen, helems, hfits, hoff⟩
    refine ⟨hitems, ?_, helems, fun it h => ⟨(hfits it h).wf, (hfits it h).in_space⟩, ?_, hoff⟩
    · rw [helems, expandItems, expandFrom_length]; exact hlen
    · rw [helems, expandItems, forall_mem_expandFrom fun a => (lookup s.regions a).isUnmapped = false]
      exact fun it h => (hfits it h).mapped

/-- The items that the RANGE check of R94 lets pass. -/
theorem fits_of_not_itemsOutOfRange {regions : List Region} {items : List WatchItem}
    (h : ¬ itemsOutOfRange regions items = true) (hwf : ∀ it ∈ items, it.wf = true) :
    ∀ it ∈ items, it.Fits regions := by
  intro it hit
  have hin : ∀ n ∈ it.addresses, n ≤ 0xFFFFF ∧ (lookup regions (BitVec.ofNat 20 n)).isUnmapped = false := by
    intro n hn
    have hout : ¬ outOfRange regions n = true := fun hout =>
      h (List.any_eq_true.2 ⟨it, hit, List.any_eq_true.2 ⟨n, hn, hout⟩⟩)
    simpa [outOfRange] using hout
  exact ⟨hwf it hit, fun n hn => (hin n hn).1, fun n hn => (hin n hn).2⟩

/-- A list that the FULL check of R94 lets pass. -/
theorem not_itemsExceed_iff (items : List WatchItem) :
    ¬ itemsExceed items = true ↔ items.length ≤ 64 ∧ (items.map WatchItem.elementCount).sum ≤ 256 := by
  simp [itemsExceed]

/-- New items take the place of the list (R92, R98, R99). -/
theorem State.watchOk_replace {s : State} {items : List WatchItem} (hroom : ¬ itemsExceed items = true)
    (hfits : ∀ it ∈ items, it.Fits s.regions) : ({ s with watch := s.watch.replace items } : State).WatchOk := by
  obtain ⟨hlen, hsum⟩ := (not_itemsExceed_iff items).1 hroom
  exact (State.watchOk_iff _).2 ⟨hlen, hsum, rfl, hfits, fun hnil => if_pos hnil⟩

/-- A mode is set while the list has items, or OFF (R101). -/
theorem State.WatchOk.setMode {s : State} (h : s.WatchOk) {m : WatchMode} (hm : s.watch.items = [] → m = .off) :
    ({ s with watch := { s.watch with mode := m } } : State).WatchOk := by
  obtain ⟨hitems, hlen, helems, hwf, hmapped, -⟩ := h
  exact ⟨hitems, hlen, helems, hwf, hmapped, hm⟩

end Sys2Proof.Machine
end

section
/-! The lease, the Operation Queue and the Watch List as the shared operations change them. -/

namespace Sys2Proof.Machine

/-! ## What holds of the session, and what keeps it -/

/-- A change keeps what holds of the lease, of the queue and of the Watch List, each by itself. -/
structure State.KeepsSession (s t : State) : Prop where
  lease : s.leaseOk = true → t.leaseOk = true
  queue : s.queueOk = true → t.queueOk = true
  watch : s.WatchOk → t.WatchOk

/-- The part of the state that those relations speak of. -/
structure Session where
  lease : Lease
  forces : List ForceEntry
  exch : ExchState
  ops : List Operation
  regions : List Region
  watch : Watch

def State.session (s : State) : Session := ⟨s.lease, s.forces, s.exch.state, s.ops, s.regions, s.watch⟩

namespace State.KeepsSession

theorem refl (s : State) : s.KeepsSession s := ⟨id, id, id⟩

theorem trans {s t u : State} (h : s.KeepsSession t) (h' : t.KeepsSession u) : s.KeepsSession u :=
  ⟨h'.lease ∘ h.lease, h'.queue ∘ h.queue, h'.watch ∘ h.watch⟩

/-- A change made under a condition alone. -/
theorem ite {s t : State} (c : Prop) [Decidable c] (h : s.KeepsSession t) : s.KeepsSession (if c then t else s) := by
  split
  · exact h
  · exact refl s

theorem watchOk_congr {s t : State} (hw : t.watch = s.watch) (hr : t.regions = s.regions) (h : s.WatchOk) : t.WatchOk := by
  rw [State.WatchOk, hw, hr]; exact h

/-- A change of the lease, the Force Table or the exchange state that keeps the lease in order. -/
theorem of_lease {s t : State} (h : s.leaseOk = true → t.leaseOk = true) (ho : t.ops = s.ops) (hw : t.watch = s.watch)
    (hr : t.regions = s.regions) : s.KeepsSession t :=
  ⟨h, fun hq => (State.queueOk_congr ho).trans hq, watchOk_congr hw hr⟩

theorem leaseOk_congr {s t : State} (hl : t.lease = s.lease) (hf : t.forces = s.forces)
    (he : t.exch.state = s.exch.state) (h : s.leaseOk = true) : t.leaseOk = true := by
  rw [State.leaseOk_iff] at h ⊢
  rw [hl, hf, he]; exact h

/-- A change of the queue that keeps it in order. -/
theorem of_queue {s t : State} (h : Queued s.ops → Queued t.ops) (hl : t.lease = s.lease) (hf : t.forces = s.forces)
    (he : t.exch.state = s.exch.state) (hw : t.watch = s.watch) (hr : t.regions = s.regions) : s.KeepsSession t :=
  ⟨leaseOk_congr hl hf he, fun hq => (State.queueOk_iff t).2 (h ((State.queueOk_iff s).1 hq)), watchOk_congr hw hr⟩

/-- A change that leaves the session as it is. -/
theorem of_eq {s t : State} (h : t.session = s.session) : s.KeepsSession t := by
  obtain ⟨hl, hf, he, ho, hr, hw⟩ := Session.mk.injEq .. |>.mp h
  exact of_lease (leaseOk_congr hl hf he) ho hw hr

/-- A change after which a sound lease follows the exchange state (R65). -/
theorem of_follow {s t : State} {l : Lease} (hs : s.lease.Sound s.forces → l.Sound t.forces)
    (hl : t.lease = l.follow t.exch.state) (ho : t.ops = s.ops) (hw : t.watch = s.watch) (hr : t.regions = s.regions) :
    s.KeepsSession t := by
  refine of_lease (fun h => (State.leaseOk_iff t).2 ?_) ho hw hr
  rw [hl]
  exact ⟨(hs ((State.leaseOk_iff s).1 h).1).follow _, rfl⟩

end State.KeepsSession

open State (KeepsSession)

/-! ## The link, the lease and the banks -/

theorem State.enter_keepsSession (s : State) (e : ExchState) : s.KeepsSession (s.enter e) :=
  .of_follow id rfl rfl rfl rfl

theorem State.setBank_keepsSession (s : State) (i : BankId) (b : Bank) : s.KeepsSession (s.setBank i b) := by
  obtain ⟨_, _, h⟩ := s.setBank_changes i b; rw [h]; exact .of_eq rfl

theorem State.emptyBank_keepsSession (s : State) (i : BankId) : s.KeepsSession (s.emptyBank i) := by
  obtain ⟨_, _, h⟩ := s.emptyBank_changes i; rw [h]; exact .of_eq rfl

theorem State.endExchange_keepsSession (s : State) (dest : BankState) : s.KeepsSession (s.endExchange dest) := by
  obtain ⟨_, _, h⟩ := s.endExchange_changes dest; rw [h]; exact .of_follow id rfl rfl rfl rfl

theorem State.endTransfer_keepsSession (s : State) : s.KeepsSession s.endTransfer :=
  .ite _ (s.endExchange_keepsSession .ready)

theorem State.endFrame_keepsSession (s : State) : s.KeepsSession s.endFrame := by
  unfold State.endFrame
  dsimp only
  split
  · exact .of_follow id rfl rfl rfl rfl
  · exact .of_eq rfl

theorem State.discardFrame_keepsSession (s : State) : s.KeepsSession s.discardFrame :=
  s.endFrame_keepsSession.trans (.of_eq rfl)

/-- A renewal fills the lease and leaves its condition (R66). -/
theorem State.renewLease_keepsSession (s : State) : s.KeepsSession s.renewLease := by
  refine .of_lease (fun h => ?_) rfl rfl rfl
  rw [State.leaseOk_iff] at h ⊢
  exact ⟨h.1.renew, (Lease.renew_follow _ _).trans (congrArg Lease.renew h.2)⟩

theorem State.releaseAll_keepsSession (s : State) : s.KeepsSession s.releaseAll := by
  refine .of_lease (fun h => ?_) rfl rfl rfl
  rw [State.leaseOk_iff] at h ⊢
  exact ⟨h.1.releaseAll, h.2⟩

theorem State.dropToView_keepsSession (s : State) : s.KeepsSession s.dropToView :=
  .of_follow (l := Lease.view) (fun _ => Lease.sound_view) rfl rfl rfl rfl

theorem State.expireLease_keepsSession (s : State) : s.KeepsSession s.expireLease :=
  s.dropToView_keepsSession.trans (.of_eq rfl)

theorem State.takeRequest_keepsSession (s : State) (code : Byte) : s.KeepsSession (s.takeRequest code) := by
  have h : s.KeepsSession s.endFrame.endTransfer.renewLease :=
    (s.endFrame_keepsSession.trans (State.endTransfer_keepsSession _)).trans (State.renewLease_keepsSession _)
  exact h.trans (.of_follow id rfl rfl rfl rfl)

theorem State.answer_keepsSession (s : State) (st : Status) (data : List Byte) : s.KeepsSession (s.answer st data) :=
  .of_follow id rfl rfl rfl rfl

theorem State.serveContinue_keepsSession (s : State) (segment : Nat) : s.KeepsSession (s.serveContinue segment) := by
  unfold State.serveContinue
  dsimp only
  split
  · exact .of_follow id rfl rfl rfl rfl
  · split
    · exact .of_follow id rfl rfl rfl rfl
    · obtain ⟨_, _, h⟩ := s.releaseBank_changes .ready
      rw [h]
      exact .of_follow id rfl rfl rfl rfl

theorem State.actBroadcast_keepsSession (s : State) (payload : List Byte) :
    s.KeepsSession (s.actBroadcast payload) := by
  unfold State.actBroadcast
  split
  · exact .refl s
  · split
    · exact .ite _ s.releaseAll_keepsSession
    · split
      · split
        · exact s.dropToView_keepsSession
        · exact .refl s
      · exact .refl s

/-! ## The arbiter and the queue -/

theorem State.grantWrite_ops (s : State) (h : Claimant) (a : Addr) (d : Word) (lanes : Lanes) :
    (s.grantWrite h a d lanes).ops = s.ops := by
  obtain ⟨_, _, h⟩ := s.grantWrite_changes h a d lanes; rw [h]

/-- Q's grant makes the head ACTIVE (R76). -/
theorem Queued.grantQ {s : State} (h : Queued s.ops) : Queued s.grantQ.ops := by
  unfold State.grantQ
  dsimp only
  split
  · exact h
  · rename_i o rest hops
    have hact : Queued ({ o with active := true } :: rest) := Queued.activate (hops ▸ h)
    split
    · rw [State.grantWrite_ops]; exact hact
    · exact hact
    · exact hact

theorem Queued.decideGrant {s : State} (h : Queued s.ops) : Queued s.decideGrant.ops := by
  unfold State.decideGrant
  split
  · obtain ⟨_, _, hc⟩ := State.grantC_changes
      { s with arb := { s.arb with count := if s.arb.engineWaits then s.arb.count + 1 else 0 } }
    rw [State.grantController, hc]; exact h
  · split
    · unfold State.grantEngine
      dsimp only
      split
      · obtain ⟨_, _, hf⟩ := State.grantF_changes
          { s with arb := { s.arb with count := 0, lastEngine := s.arb.nextEngine } }
        rw [hf]; exact h
      · exact Queued.grantQ (s := { s with arb := { s.arb with count := 0, lastEngine := s.arb.nextEngine } }) h
    · exact h

theorem State.decideGrant_keepsSession (s : State) : s.KeepsSession s.decideGrant := by
  have hops : Queued s.ops → Queued s.decideGrant.ops := Queued.decideGrant
  obtain ⟨_, _, _, h⟩ := s.decideGrant_changes
  rw [h] at hops ⊢
  exact .of_queue hops rfl rfl rfl rfl rfl

theorem State.claimArrives_keepsSession (s : State) (before : Arbiter) : s.KeepsSession (s.claimArrives before) :=
  .ite _ s.decideGrant_keepsSession

theorem State.afterControllerGrant_keepsSession (s : State) : s.KeepsSession s.endGrant.afterControllerGrant := by
  unfold State.afterControllerGrant
  split
  · exact KeepsSession.trans (t := s.endGrant) (.of_eq rfl) (State.decideGrant_keepsSession _)
  · exact .of_eq rfl

/-- A satisfied record makes its reply ready (R83). -/
theorem State.examineRecord_keepsSession (s : State) : s.KeepsSession s.examineRecord := by
  unfold State.examineRecord
  split
  · exact .of_follow id rfl rfl rfl rfl
  · exact .refl s

theorem State.enqueue_keepsSession (s : State) {new : List Operation} (hroom : new.length ≤ s.freePlaces)
    (hnew : ∀ x ∈ new, x.behind = true) : s.KeepsSession (s.enqueue new) := by
  have hjoin : s.KeepsSession ({ s with ops := s.ops ++ new } : State).settleHead :=
    .of_queue (fun h => h.join hroom hnew) rfl rfl rfl rfl rfl
  exact (hjoin.trans (State.claimArrives_keepsSession _ _)).trans (State.examineRecord_keepsSession _)

theorem State.retireHead_keepsSession (s : State) (w : Word) : s.KeepsSession (s.retireHead w) := by
  unfold State.retireHead
  split
  · exact .refl s
  · rename_i o rest hops
    have hretire : s.KeepsSession { s with ops := rest, completion := handOn s.completion o w }.endGrant.settleHead := by
      refine .of_queue (fun h => ?_) rfl rfl rfl rfl rfl
      have hlen := h.room
      rw [hops] at hlen
      exact queued_settleOps s.regions (Nat.le_of_succ_le hlen) (h.order o rest hops).2 _
    exact (hretire.trans (State.decideGrant_keepsSession _)).trans (State.examineRecord_keepsSession _)

theorem State.abandonRecord_keepsSession (s : State) : s.KeepsSession s.abandonRecord := by
  unfold State.abandonRecord
  split
  · exact .refl s
  · exact .of_eq rfl
  · exact .of_queue (fun h => h.abandonPeek none) rfl rfl rfl rfl rfl

/-! ## The Capture Unit and the Scan Supervisor -/

theorem State.capture_keepsSession (s : State) (a : Addr) (w : Word) : s.KeepsSession (s.capture a w) := by
  obtain ⟨_, _, _, _, _, h⟩ := s.capture_changes a w; rw [h]; exact .of_eq rfl

theorem State.settleFill_keepsSession (s : State) : s.KeepsSession s.settleFill := by
  obtain ⟨_, _, _, _, _, h⟩ := s.settleFill_changes; rw [h]; exact .of_eq rfl

/-- The start of a fill turns a ONE-SHOT list OFF (R101, R110). -/
theorem State.endOneShot_keepsSession (s : State) (f : Option Fill) (missed : Nat) (b : Arbiter) :
    s.KeepsSession { s with
      fill := f, missed := missed, arb := b,
      watch := { s.watch with mode := if s.watch.mode = WatchMode.oneShot then WatchMode.off else s.watch.mode } } := by
  refine ⟨KeepsSession.leaseOk_congr rfl rfl rfl, id, fun h => ?_⟩
  obtain ⟨-, -, -, -, hoff⟩ := (State.watchOk_iff s).1 h
  exact h.setMode fun hnil => by rw [hoff hnil]; rfl

theorem State.startFill_keepsSession (s : State) (i : BankId) (period : Option Micros) :
    s.KeepsSession (s.startFill i period) := by
  unfold State.startFill
  exact ((s.setBank_keepsSession i _).trans (State.endOneShot_keepsSession _ _ _ _)).trans
    (State.settleFill_keepsSession _)

theorem State.judgeMarker_keepsSession (s : State) (period : Option Micros) :
    s.KeepsSession (s.judgeMarker period) := by
  unfold State.judgeMarker
  split
  · exact .refl s
  · split
    · exact s.startFill_keepsSession _ period
    · exact .of_eq rfl

theorem State.enterStall_keepsSession (s : State) : s.KeepsSession s.enterStall := by
  unfold State.enterStall
  dsimp only
  split
  · exact s.releaseAll_keepsSession.trans (.of_eq rfl)
  · exact .of_eq rfl

theorem State.markerCheck_keepsSession (s : State) (a : Addr) : s.KeepsSession (s.markerCheck a) := by
  refine .ite _ ?_
  unfold State.marker
  refine (KeepsSession.ite (s.sup.due = true) s.enterStall_keepsSession).trans ?_
  generalize (if s.sup.due = true then s.enterStall else s) = u
  exact KeepsSession.trans (t := { u with sup := u.sup.takeMarker u.time }) (.of_eq rfl)
    (State.judgeMarker_keepsSession _ _)

theorem State.takeExpiries_keepsSession (s : State) : s.KeepsSession s.takeExpiries := by
  have hlease (u : State) : u.KeepsSession (if u.leaseDue then u.expireLease else u) := .ite _ u.expireLease_keepsSession
  have hstall (u : State) : u.KeepsSession (if u.sup.due then u.enterStall else u) := .ite _ u.enterStall_keepsSession
  have hcont (u : State) : u.KeepsSession (if u.continuationDue then u.endTransfer else u) :=
    .ite _ u.endTransfer_keepsSession
  exact ((hlease s).trans (hstall _)).trans (hcont _)

/-- One µs takes at most one µs from the remaining time (R59). -/
theorem State.countMicro_keepsSession (s : State) : s.KeepsSession s.countMicro := by
  have hexch : s.countMicro.exch.state = s.exch.state := by
    unfold State.countMicro
    dsimp only
    split <;> rfl
  refine .of_lease (fun h => ?_) rfl rfl rfl
  rw [State.leaseOk_iff] at h ⊢
  rw [hexch]
  obtain ⟨hs, hf⟩ := h
  unfold State.countMicro
  dsimp only
  split
  · rename_i hrun
    have hl : s.lease.level ≠ .view := fun hv => by rw [(hs.view hv).1] at hrun; cases hrun
    obtain ⟨d, hg, h1, h2, hr⟩ := hs.above hl
    refine ⟨⟨fun hv => absurd hv hl, fun _ => ⟨d, hg, h1, h2, (Nat.sub_le _ _).trans hr⟩⟩, ?_⟩
    exact Lease.ext rfl rfl rfl (congrArg Lease.cond hf :)
  · exact ⟨hs, hf⟩

/-! ## The Controller Port -/

theorem State.takeAtArbiter_keepsSession (s : State) (claims : Bool) : s.KeepsSession (s.takeAtArbiter claims) := by
  unfold State.takeAtArbiter
  dsimp only
  refine KeepsSession.trans (t := { s with arb := { s.arb with waitC := s.arb.waitC || claims, reservation := none } })
    (.of_eq rfl) ?_
  split
  · exact State.decideGrant_keepsSession _
  · exact .ite _ (State.claimArrives_keepsSession _ _)

theorem State.takeAccess_keepsSession (s : State) : s.KeepsSession s.takeAccess := by
  unfold State.takeAccess
  dsimp only
  split
  · exact KeepsSession.trans (t := { s with port := .active (accessOf s.regions s.bus) }) (.of_eq rfl)
      (State.takeAtArbiter_keepsSession _ true)
  · refine (s.takeAtArbiter_keepsSession false).trans ?_
    split
    · split
      · exact .of_eq rfl
      · exact .of_eq rfl
    · exact .of_eq rfl

theorem State.tryTake_keepsSession (s : State) : s.KeepsSession s.tryTake := .ite _ s.takeAccess_keepsSession

theorem State.completeAccess_keepsSession (s : State) (word : Option Word) : s.KeepsSession (s.completeAccess word) := by
  unfold State.completeAccess
  split
  · split
    · exact KeepsSession.trans (t := { s with port := .idle }) (.of_eq rfl) (State.tryTake_keepsSession _)
    · exact .of_eq rfl
  · exact .refl s

theorem State.moveBus_keepsSession (s : State) (p : BusPins) : s.KeepsSession (s.moveBus p) := by
  unfold State.moveBus
  split
  · exact KeepsSession.trans (t := { s with bus := p }) (.of_eq rfl) (State.tryTake_keepsSession _)
  · exact .of_eq rfl

/-- The end of a controller access (R2, R17). -/
theorem State.endAccess_keepsSession (s : State) (word : Option Word) :
    s.KeepsSession (s.endGrant.afterControllerGrant.completeAccess word) :=
  s.afterControllerGrant_keepsSession.trans (State.completeAccess_keepsSession _ word)

end Sys2Proof.Machine
end

section
/-! Every step keeps the session: the requests that change the lease, the queue or the Watch List under checks, the other
commands, and the step. -/

namespace Sys2Proof.Machine

open State (KeepsSession)

/-! ## The requests without checks on the session -/

/-- A request that keeps the session in its carrying out keeps it from its taking. -/
theorem State.onRequest_keepsSession {s t : State} {c : RxChar} {code : Byte} {carryOut : List Byte → State → State}
    (h : s.onRequest c code carryOut = .next t) (hk : ∀ params (u : State), u.KeepsSession (carryOut params u)) :
    s.KeepsSession t :=
  State.onRequest_keeps s.KeepsSession (.refl s) (fun params => (s.takeRequest_keepsSession code).trans (hk params _)) h

/-- A request answered after a change that keeps the session. -/
theorem State.KeepsSession.answer {u v : State} (h : u.KeepsSession v) (st : Status) (data : List Byte) :
    u.KeepsSession (v.answer st data) :=
  h.trans (v.answer_keepsSession st data)

theorem withoutParams_keepsSession {carryOut : State → State} (hk : ∀ u : State, u.KeepsSession (carryOut u))
    (params : List Byte) (u : State) : u.KeepsSession (withoutParams carryOut params u) := by
  unfold withoutParams
  split
  · exact hk u
  · exact u.answer_keepsSession .format []

/-- A request without parameters that only reports. -/
theorem report_keepsSession {st : Status} {data : State → List Byte} (params : List Byte) (u : State) :
    u.KeepsSession (withoutParams (fun v => v.answer st (data v)) params u) :=
  withoutParams_keepsSession (fun v => v.answer_keepsSession st (data v)) params u

theorem doProbe_keepsSession (params : List Byte) (u : State) : u.KeepsSession (doProbe params u) := by
  unfold doProbe
  split
  · exact u.answer_keepsSession _ _
  · exact u.answer_keepsSession _ _

theorem doSnapRead_keepsSession (params : List Byte) (u : State) : u.KeepsSession (doSnapRead params u) := by
  unfold doSnapRead
  split
  · exact u.answer_keepsSession _ _
  · split
    · exact u.answer_keepsSession _ _
    · refine KeepsSession.answer ?_ _ _
      exact (u.setBank_keepsSession _ _).trans (.of_eq rfl)

theorem State.acknowledge_keepsSession (u : State) : u.KeepsSession u.acknowledge := by
  unfold State.acknowledge
  split
  · exact (u.emptyBank_keepsSession .a).answer _ _
  · split
    · exact (u.emptyBank_keepsSession .b).answer _ _
    · exact u.answer_keepsSession _ _

theorem doScanConfig_keepsSession (params : List Byte) (u : State) : u.KeepsSession (doScanConfig params u) := by
  rcases doScanConfig_admitted params u with ⟨st, he⟩ | ⟨v, -, he⟩ <;> rw [he]
  · exact u.answer_keepsSession st []
  · exact .of_follow id rfl rfl rfl rfl

theorem doScanStats_keepsSession (params : List Byte) (u : State) : u.KeepsSession (doScanStats params u) := by
  unfold doScanStats
  split
  · exact u.answer_keepsSession _ _
  · exact .of_follow id rfl rfl rfl rfl

theorem doAlertClear_keepsSession (params : List Byte) (u : State) : u.KeepsSession (doAlertClear params u) := by
  unfold doAlertClear
  split
  · exact u.answer_keepsSession _ _
  · exact .of_follow id rfl rfl rfl rfl

theorem doAlertEnable_keepsSession (params : List Byte) (u : State) : u.KeepsSession (doAlertEnable params u) := by
  unfold doAlertEnable
  split
  · exact u.answer_keepsSession _ _
  · exact .of_follow id rfl rfl rfl rfl

/-! ## The requests that change the session under checks -/

/-- LEVEL gives a sound lease, at VIEW with an empty Force Table (R62 to R64). -/
theorem doLevel_keepsSession (params : List Byte) (u : State) : u.KeepsSession (doLevel params u) := by
  unfold doLevel
  split
  · exact u.answer_keepsSession _ _
  · exact u.dropToView_keepsSession.answer _ _
  · rename_i lv d hview hparse
    obtain ⟨-, hd, -⟩ := (parseLevel_some params lv d).1 hparse
    obtain ⟨h1, h2⟩ := hd.resolve_left hview
    exact .of_follow (l := ⟨lv, some d, d * 100000, .paused⟩)
      (fun _ => Lease.sound_of_above hview rfl h1 h2 (Nat.le_refl _) _) rfl rfl rfl rfl

/-- SESSION CLEAR leaves the lease at VIEW, the ACTIVE operation alone and no watch item (R72). -/
theorem State.clearSession_keepsSession (u : State) : u.KeepsSession u.clearSession where
  lease := u.dropToView_keepsSession.lease
  queue h := by
    refine (State.queueOk_iff _).2 ?_
    show Queued (u.ops.filter Operation.active)
    rcases ((State.queueOk_iff u).1 h).filter_active with hops | ⟨o, ho, hops⟩ <;> rw [hops]
    · exact .nil
    · exact .cons (by decide) ho nofun
  watch _ := ⟨Nat.zero_le _, Nat.zero_le _, rfl, nofun, nofun, fun _ => rfl⟩

/-- A PEEK's READs join the queue within its free places (R84). -/
theorem doPeek_keepsSession (params : List Byte) (u : State) : u.KeepsSession (doPeek params u) := by
  unfold doPeek
  split
  · exact u.answer_keepsSession _ _
  · rename_i a n hparse
    split_ifs with hrange hfull
    · exact u.answer_keepsSession _ _
    · exact u.answer_keepsSession _ _
    · obtain ⟨-, hn, -⟩ := (parsePeek_some params a n).1 hparse
      refine KeepsSession.trans (t := { u with completion := some (.peek (List.replicate n none)) }) (.of_eq rfl) ?_
      refine State.enqueue_keepsSession _ ?_ ?_
      · rw [List.length_map, List.length_range]; exact Nat.not_lt.1 hfull
      · refine List.forall_mem_map.2 fun i hi => ?_
        have hi : i < 32 := (List.mem_range.1 hi).trans_le hn
        simpa [Operation.behind, Operation.wf] using hi

/-- A POKE's WRITEs join the queue within its free places (R82). -/
theorem doPoke_keepsSession (params : List Byte) (u : State) : u.KeepsSession (doPoke params u) := by
  unfold doPoke
  split
  · exact u.answer_keepsSession _ _
  · rename_i a ws _
    dsimp only
    split_ifs with hview hrange hcls hrun hfull
    · exact u.answer_keepsSession _ _
    · exact u.answer_keepsSession _ _
    · exact u.answer_keepsSession _ _
    · exact u.answer_keepsSession _ _
    · exact u.answer_keepsSession _ _
    · refine KeepsSession.answer (u.enqueue_keepsSession ?_ (behind_pokeOps a ws)) _ _
      rw [pokeOps_length]; exact Nat.not_lt.1 hfull

/-- A FORCE changes the Force Table above VIEW alone, and its MODIFYs join the queue within its free places (R50 to R52,
R61). -/
theorem doForce_keepsSession (params : List Byte) (u : State) : u.KeepsSession (doForce params u) := by
  unfold doForce
  split
  · exact u.answer_keepsSession _ _
  · rename_i ws hparse
    dsimp only
    split_ifs with hview hunmapped hcls hfull hqueue
    · exact u.answer_keepsSession _ _
    · exact u.answer_keepsSession _ _
    · exact u.answer_keepsSession _ _
    · exact u.answer_keepsSession _ _
    · exact u.answer_keepsSession _ _
    · have hforces : u.KeepsSession { u with forces := applyForce u.forces ws } := by
        refine .of_lease (fun h => ?_) rfl rfl rfl
        rw [State.leaseOk_iff] at h ⊢
        exact ⟨h.1.setForces hview _, h.2⟩
      obtain ⟨⟨-, -, -, hmasks⟩, -⟩ := (parseForce_some params ws).1 hparse
      refine KeepsSession.answer (hforces.trans (State.enqueue_keepsSession _ (Nat.not_lt.1 hqueue) fun x hx => ?_)) _ _
      obtain ⟨f, hf, ho⟩ := List.mem_filterMap.1 hx
      exact behind_forceOp ((ForceWord.disjoint_iff f).2 (hmasks f hf)) ho

/-- A new list of old items and of items that pass the RANGE check keeps the Watch List in order (R94, R97). -/
theorem State.changeWatch_keepsSession (u : State) {new list : List WatchItem} (hwf : ∀ it ∈ new, it.wf = true)
    (hlist : ∀ it ∈ list, it ∈ u.watch.items ∨ it ∈ new) : u.KeepsSession (u.changeWatch new list) := by
  unfold State.changeWatch
  split_ifs with hrange hbusy hfull
  · exact u.answer_keepsSession _ _
  · exact u.answer_keepsSession _ _
  · exact u.answer_keepsSession _ _
  · have hreplace : u.KeepsSession { u with watch := u.watch.replace list } := by
      refine ⟨KeepsSession.leaseOk_congr rfl rfl rfl, id, fun h => ?_⟩
      obtain ⟨-, -, -, hold, -⟩ := (State.watchOk_iff u).1 h
      exact State.watchOk_replace hfull fun it hit =>
        (hlist it hit).elim (hold it) (fits_of_not_itemsOutOfRange hrange hwf it)
    exact hreplace.answer _ _

theorem doWatchDefine_keepsSession (params : List Byte) (u : State) : u.KeepsSession (doWatchDefine params u) := by
  unfold doWatchDefine
  split
  · exact u.answer_keepsSession _ _
  · rename_i items hparse
    obtain ⟨⟨-, hwf⟩, -⟩ := (parseItems_some params items).1 hparse
    exact u.changeWatch_keepsSession hwf fun _ => .inr

theorem doWatchAppend_keepsSession (params : List Byte) (u : State) : u.KeepsSession (doWatchAppend params u) := by
  unfold doWatchAppend
  split
  · exact u.answer_keepsSession _ _
  · exact u.answer_keepsSession _ _
  · rename_i items _ hparse
    obtain ⟨⟨-, hwf⟩, -⟩ := (parseItems_some params items).1 hparse
    exact u.changeWatch_keepsSession hwf fun _ => List.mem_append.1

/-- A new mode, which an empty list does not take unless it is OFF. -/
theorem State.setMode_keepsSession (u : State) {m : WatchMode} (hm : u.watch.items = [] → m = .off) :
    u.KeepsSession { u with watch := { u.watch with mode := m } } :=
  ⟨KeepsSession.leaseOk_congr rfl rfl rfl, id, fun h => h.setMode hm⟩

theorem doWatchArm_keepsSession (params : List Byte) (u : State) : u.KeepsSession (doWatchArm params u) := by
  unfold doWatchArm
  split
  · exact u.answer_keepsSession _ _
  · split
    · exact u.answer_keepsSession _ _
    · rename_i hitems
      exact (u.setMode_keepsSession fun h => absurd h hitems).answer _ _

/-- REGION SET leaves every element of the Watch List in an enabled region (R35). -/
theorem doRegionSet_keepsSession (params : List Byte) (u : State) : u.KeepsSession (doRegionSet params u) := by
  unfold doRegionSet
  split
  · exact u.answer_keepsSession _ _
  · rename_i n r _
    dsimp only
    split_ifs with hlevel hbusy hconflict
    · exact u.answer_keepsSession _ _
    · exact u.answer_keepsSession _ _
    · exact u.answer_keepsSession _ _
    · have hset : u.KeepsSession { u with regions := u.regions.set n r } := by
        refine ⟨KeepsSession.leaseOk_congr rfl rfl rfl, id, fun h => ?_⟩
        obtain ⟨hitems, hlen, helems, hwf, -, hoff⟩ := h
        refine ⟨hitems, hlen, helems, hwf, fun e he => Bool.eq_false_iff.2 fun hu => hconflict ?_, hoff⟩
        exact (State.regionConflict_iff u _).2 (.inr (.inl ⟨e, he, (Classification.isUnmapped_iff _).1 hu⟩))
      exact hset.answer _ _

/-! ## The completions at memory -/

theorem execControllerReadDataReturn_keepsSession {s t : State} (h : execControllerReadDataReturn s = .next t) :
    s.KeepsSession t := by
  unfold execControllerReadDataReturn at h
  split at h <;> cases h
  · exact s.endAccess_keepsSession _
  · exact .refl s

theorem execReservationExpiry_keepsSession {s t : State} (h : execReservationExpiry s = .next t) :
    s.KeepsSession t := by
  unfold execReservationExpiry at h
  split at h <;> cases h
  · exact KeepsSession.trans (t := { s with arb := { s.arb with reservation := none } }) (.of_eq rfl)
      (State.decideGrant_keepsSession _)
  · exact .refl s

/-- A write that reaches memory leaves the session. -/
theorem State.setMem_keepsSession (s : State) (m : Memory) : s.KeepsSession { s with mem := m } := .of_eq rfl

theorem execControllerWriteReachesMemory_keepsSession {s t : State}
    (h : execControllerWriteReachesMemory s = .next t) : s.KeepsSession t := by
  unfold execControllerWriteReachesMemory at h
  split at h <;> cases h
  · exact ((s.setMem_keepsSession _).trans (State.markerCheck_keepsSession _ _)).trans (State.endAccess_keepsSession _ _)
  · exact .refl s

theorem execCaptureReadReturn_keepsSession {s t : State} (h : execCaptureReadReturn s = .next t) :
    s.KeepsSession t := by
  unfold execCaptureReadReturn at h
  split at h <;> cases h
  · exact (s.capture_keepsSession _ _).trans (.of_eq rfl)
  · exact .refl s

theorem execFillReadReturn_keepsSession {s t : State} (h : execFillReadReturn s = .next t) : s.KeepsSession t := by
  unfold execFillReadReturn at h
  split at h <;> cases h
  · rename_i a _ _
    refine (s.capture_keepsSession a (s.mem.readWord a)).trans (KeepsSession.trans ?_ (State.decideGrant_keepsSession _))
    exact .of_eq rfl
  · exact .refl s

theorem execReadOperationDataReturn_keepsSession {s t : State} (h : execReadOperationDataReturn s = .next t) :
    s.KeepsSession t := by
  unfold execReadOperationDataReturn at h
  split at h
  · split at h <;> cases h
    · exact s.retireHead_keepsSession _
    · exact .refl s
    · exact .refl s
  · cases h; exact .refl s

theorem execWriteOperationReachesMemory_keepsSession {s t : State}
    (h : execWriteOperationReachesMemory s = .next t) : s.KeepsSession t := by
  unfold execWriteOperationReachesMemory at h
  split at h
  · split at h <;> cases h
    · exact (s.setMem_keepsSession _).trans (State.retireHead_keepsSession _ _)
    · exact .refl s
    · exact .refl s
  · cases h; exact .refl s

theorem execModifyReadComplete_keepsSession {s t : State} (h : execModifyReadComplete s = .next t) :
    s.KeepsSession t := by
  unfold execModifyReadComplete at h
  split at h
  · split at h <;> cases h
    · exact (s.capture_keepsSession _ _).trans (.of_eq rfl)
    · exact .refl s
    · exact .refl s
  · cases h; exact .refl s

theorem execModifyWriteReachesMemory_keepsSession {s t : State} (h : execModifyWriteReachesMemory s = .next t) :
    s.KeepsSession t := by
  unfold execModifyWriteReachesMemory at h
  split at h
  · split at h <;> cases h
    · exact (s.setMem_keepsSession _).trans (State.retireHead_keepsSession _ _)
    · exact .refl s
    · exact .refl s
  · cases h; exact .refl s

/-! ## Reset, the pins and the link -/

/-- The reset values of the lease, the queue and the Watch List are those of State.reset (R19, R59, R89, R92). -/
theorem State.resetBlocks_keepsSession (s u : State) : s.KeepsSession u.resetBlocks :=
  ⟨fun _ => reset_meets_coherent.lease, fun _ => reset_meets_coherent.queue, fun _ => reset_meets_coherent.watch⟩

theorem execSysrstnRise_keepsSession {s t : State} {node : BitVec 4} {rate : BitVec 2} {space : Bool}
    (h : execSysrstnRise node rate space s = .next t) : s.KeepsSession t := by
  cases h
  split
  · exact .refl s
  · exact KeepsSession.trans
      (t := { s with sysrstn := true, strapNode := node, strapRate := rate, rx := ⟨.hunt, space⟩ }) (.of_eq rfl)
      (State.tryTake_keepsSession _)

theorem execCtlrunRise_keepsSession {s t : State} (h : execCtlrunRise s = .next t) : s.KeepsSession t := by
  cases h
  dsimp only
  split
  · exact .of_eq rfl
  · exact .of_eq rfl

theorem execCtlrunFall_keepsSession {s t : State} (h : execCtlrunFall s = .next t) : s.KeepsSession t := by
  cases h
  dsimp only
  split
  · exact .of_eq rfl
  · exact .of_eq rfl

theorem execFrameStart_keepsSession {s t : State} {c : RxChar} (h : execFrameStart c s = .next t) :
    s.KeepsSession t := by
  cases h
  refine .ite _ ?_
  dsimp only
  split
  · exact .of_follow id rfl rfl rfl rfl
  · exact .of_eq rfl

theorem execFrameCharacterTaken_keepsSession {s t : State} {c : RxChar} (h : execFrameCharacterTaken c s = .next t) :
    s.KeepsSession t := by
  unfold execFrameCharacterTaken at h
  split at h <;> cases h
  · exact .refl s
  · exact .ite _ (.of_eq rfl)

theorem execOverlongLength_keepsSession {s t : State} {c : RxChar} (h : execOverlongLength c s = .next t) :
    s.KeepsSession t := by
  unfold execOverlongLength at h
  split at h <;> cases h
  · exact .refl s
  · exact .ite _ s.discardFrame_keepsSession

theorem execInterByteTimeout_keepsSession {s t : State} (h : execInterByteTimeout s = .next t) : s.KeepsSession t := by
  unfold execInterByteTimeout at h
  split at h <;> cases h
  · exact .refl s
  · exact .ite _ s.discardFrame_keepsSession

/-- The end of a frame, and with it of a transfer (R150, R160). -/
theorem State.endFrameAndTransfer_keepsSession (s : State) : s.KeepsSession s.endFrame.endTransfer :=
  s.endFrame_keepsSession.trans (State.endTransfer_keepsSession _)

theorem execBroadcastRequest_keepsSession {s t : State} {c : RxChar} (h : execBroadcastRequest c s = .next t) :
    s.KeepsSession t := by
  unfold execBroadcastRequest at h
  split at h <;> cases h
  · exact s.endFrameAndTransfer_keepsSession.trans (State.actBroadcast_keepsSession _ _)
  · exact .refl s

theorem execContinueFrame_keepsSession {s t : State} {c : RxChar} (h : execContinueFrame c s = .next t) :
    s.KeepsSession t := by
  unfold execContinueFrame at h
  have hrenew : s.KeepsSession s.endFrame.renewLease := s.endFrame_keepsSession.trans (State.renewLease_keepsSession _)
  split at h <;> cases h
  · split
    · exact hrenew.trans (State.serveContinue_keepsSession _ _)
    · exact hrenew
  · exact s.endFrame_keepsSession
  · exact .refl s

theorem execAbortFrame_keepsSession {s t : State} {c : RxChar} (h : execAbortFrame c s = .next t) :
    s.KeepsSession t := by
  unfold execAbortFrame at h
  split at h <;> cases h
  · split
    · exact s.endFrameAndTransfer_keepsSession.trans (State.renewLease_keepsSession _)
    · exact s.endFrameAndTransfer_keepsSession
  · exact .refl s

theorem execBreakLine_keepsSession {s t : State} (h : execBreakLine s = .next t) : s.KeepsSession t := by
  cases h
  refine .ite _ (KeepsSession.trans (t := { s with rx := ⟨.hunt, true⟩ }) (.of_eq rfl) ?_)
  dsimp only
  split
  · exact .refl _
  · exact State.enter_keepsSession _ _
  · exact (State.abandonRecord_keepsSession _).trans (State.endExchange_keepsSession _ _)
  · exact State.endExchange_keepsSession _ _
  · exact State.endExchange_keepsSession _ _

theorem execFrameTransmitStart_keepsSession {s t : State} (h : execFrameTransmitStart s = .next t) :
    s.KeepsSession t := by
  cases h
  refine .ite _ ?_
  dsimp only
  split
  · split
    · exact s.discardFrame_keepsSession.trans (.of_eq rfl)
    · exact .of_eq rfl
  · exact .of_eq rfl

theorem execFrameSent_keepsSession {s t : State} (h : execFrameSent s = .next t) : s.KeepsSession t := by
  unfold execFrameSent at h
  split at h <;> cases h
  · exact .refl s
  · exact .ite _ (s.endExchange_keepsSession .ready)
  · refine .ite _ ?_
    split
    · exact s.endExchange_keepsSession .sent
    · exact .of_follow id rfl rfl rfl rfl

theorem execUnknownRequest_keepsSession {s t : State} {c : RxChar} (h : execUnknownRequest c s = .next t) :
    s.KeepsSession t := by
  unfold execUnknownRequest at h
  split at h
  · rename_i k _ _
    cases h
    split
    · exact .refl s
    · exact (s.takeRequest_keepsSession k).answer _ _
  · cases h
    exact .refl s

/-! ## The step -/

/-- Every command keeps the session. -/
theorem exec_keepsSession {i : Instr} {s t : State} (h : exec i s = .next t) : s.KeepsSession t := by
  cases i with
  | accessTake p => cases h; exact s.moveBus_keepsSession p
  | cycleEnd p => cases h; exact s.moveBus_keepsSession p
  | controllerReadDataReturn => exact execControllerReadDataReturn_keepsSession h
  | reservationExpiry => exact execReservationExpiry_keepsSession h
  | controllerWriteReachesMemory => exact execControllerWriteReachesMemory_keepsSession h
  | captureReadReturn => exact execCaptureReadReturn_keepsSession h
  | fillReadReturn => exact execFillReadReturn_keepsSession h
  | readOperationDataReturn => exact execReadOperationDataReturn_keepsSession h
  | writeOperationReachesMemory => exact execWriteOperationReachesMemory_keepsSession h
  | modifyReadComplete => exact execModifyReadComplete_keepsSession h
  | modifyWriteReachesMemory => exact execModifyWriteReachesMemory_keepsSession h
  | sysrstnFall => cases h; exact .ite _ (s.resetBlocks_keepsSession _)
  | sysrstnRise node rate space => exact execSysrstnRise_keepsSession h
  | ctlrunRise => exact execCtlrunRise_keepsSession h
  | ctlrunFall => exact execCtlrunFall_keepsSession h
  | scanLimitExpiry => cases h; exact .ite _ s.enterStall_keepsSession
  | leaseExpiry => cases h; exact .ite _ s.expireLease_keepsSession
  | frameStart c => exact execFrameStart_keepsSession h
  | overlongLength c => exact execOverlongLength_keepsSession h
  | interByteTimeout => exact execInterByteTimeout_keepsSession h
  | badFrame c => cases h; exact .ite _ s.discardFrame_keepsSession
  | ignoredFrame c => cases h; exact .ite _ s.endFrame_keepsSession
  | requestOtherNode c => cases h; exact .ite _ s.endFrameAndTransfer_keepsSession
  | broadcastRequest c => exact execBroadcastRequest_keepsSession h
  | continueFrame c => exact execContinueFrame_keepsSession h
  | abortFrame c => exact execAbortFrame_keepsSession h
  | continuationLimit => cases h; exact .ite _ s.endTransfer_keepsSession
  | breakLine => exact execBreakLine_keepsSession h
  | frameTransmitStart => exact execFrameTransmitStart_keepsSession h
  | frameSent => exact execFrameSent_keepsSession h
  | emptyRequest c => cases h; exact .ite _ ((s.takeRequest_keepsSession 0x00).answer _ _)
  | unknownRequest c => exact execUnknownRequest_keepsSession h
  | probe c => exact State.onRequest_keepsSession h doProbe_keepsSession
  | identify c => exact State.onRequest_keepsSession h report_keepsSession
  | status c => exact State.onRequest_keepsSession h report_keepsSession
  | level c => exact State.onRequest_keepsSession h doLevel_keepsSession
  | sessionClear c =>
    exact State.onRequest_keepsSession h (withoutParams_keepsSession fun u => u.clearSession_keepsSession.answer _ _)
  | peek c => exact State.onRequest_keepsSession h doPeek_keepsSession
  | poke c => exact State.onRequest_keepsSession h doPoke_keepsSession
  | sync c =>
    exact State.onRequest_keepsSession h (withoutParams_keepsSession fun u =>
      KeepsSession.trans (t := { u with completion := some .sync }) (.of_eq rfl) (State.examineRecord_keepsSession _))
  | force c => exact State.onRequest_keepsSession h doForce_keepsSession
  | releaseAll c =>
    exact State.onRequest_keepsSession h (withoutParams_keepsSession fun u => u.releaseAll_keepsSession.answer _ _)
  | forceList c => exact State.onRequest_keepsSession h report_keepsSession
  | watchDefine c => exact State.onRequest_keepsSession h doWatchDefine_keepsSession
  | watchAppend c => exact State.onRequest_keepsSession h doWatchAppend_keepsSession
  | watchList c => exact State.onRequest_keepsSession h report_keepsSession
  | watchArm c => exact State.onRequest_keepsSession h doWatchArm_keepsSession
  | watchStop c =>
    exact State.onRequest_keepsSession h (withoutParams_keepsSession fun u =>
      (u.setMode_keepsSession fun _ => rfl).answer _ _)
  | snapRead c => exact State.onRequest_keepsSession h doSnapRead_keepsSession
  | snapAck c => exact State.onRequest_keepsSession h (withoutParams_keepsSession State.acknowledge_keepsSession)
  | scanConfig c => exact State.onRequest_keepsSession h doScanConfig_keepsSession
  | scanStats c => exact State.onRequest_keepsSession h doScanStats_keepsSession
  | regionSet c => exact State.onRequest_keepsSession h doRegionSet_keepsSession
  | regionList c => exact State.onRequest_keepsSession h report_keepsSession
  | logRead c =>
    exact State.onRequest_keepsSession h (withoutParams_keepsSession fun _ => .of_follow id rfl rfl rfl rfl)
  | alertClear c => exact State.onRequest_keepsSession h doAlertClear_keepsSession
  | alertEnable c => exact State.onRequest_keepsSession h doAlertEnable_keepsSession
  | timeBaseTick => cases h; exact .ite _ (s.takeExpiries_keepsSession.trans (State.countMicro_keepsSession _))
  | lrxReturnsToMark => cases h; exact .of_eq rfl
  | frameCharacterTaken c => exact execFrameCharacterTaken_keepsSession h
  | turnViolationAtFinalByte c => cases h; exact .ite _ s.discardFrame_keepsSession

/-- Settles O55: an empty queue idles, and the front command keeps each relation of the session. -/
theorem sessionKept : Obligations.SessionKept := by
  intro s t hstep
  unfold step at hstep
  split at hstep
  · cases hstep
    exact ⟨id, id, id⟩
  · rename_i i rest _
    obtain ⟨hlease, hqueue, hwatch⟩ := exec_keepsSession hstep
    exact ⟨hlease, hqueue, hwatch⟩

end Sys2Proof.Machine
end

section
/-! One µs of the Time Base (R59, R133, R145, R161), after the expiries that are due. -/

namespace Sys2Proof.Machine

/-! ## One µs -/

theorem countElapsed_eq (e : Micros) : countElapsed e = if e.toNat = 0xFFFFFFFF then e else e + 1 := by
  have hones : e = BitVec.allOnes 32 ↔ e.toNat = 0xFFFFFFFF := by
    rw [← BitVec.toNat_inj]; rfl
  simp only [countElapsed, hones]

/-- What one µs changes, field by field. -/
theorem State.countMicro_eq (s : State) :
    s.countMicro = { s with
      time := s.time + 1,
      lease := { s.lease with
        remaining := if s.lease.cond = .running then s.lease.remaining - 1 else s.lease.remaining },
      sup := { s.sup with elapsed := s.sup.elapsed.map (fun e => if e.toNat = 0xFFFFFFFF then e else e + 1) },
      exch := { s.exch with
        contTime := if s.exch.state = .awaitContinue then s.exch.contTime.map (· + 1) else s.exch.contTime } } := by
  have hlease : (if s.lease.cond = .running then { s.lease with remaining := s.lease.remaining - 1 } else s.lease) =
      { s.lease with remaining := if s.lease.cond = .running then s.lease.remaining - 1 else s.lease.remaining } := by
    split <;> rfl
  have hexch : (if s.exch.state = .awaitContinue then { s.exch with contTime := s.exch.contTime.map (· + 1) }
      else s.exch) = { s.exch with
        contTime := if s.exch.state = .awaitContinue then s.exch.contTime.map (· + 1) else s.exch.contTime } := by
    split <;> rfl
  rw [State.countMicro, hlease, hexch, funext countElapsed_eq]

/-! ## The expiries before it (R67, R139, R161) -/

theorem exec_timeBaseTick_of_low {s : State} (h : s.sysrstn = false) : exec .timeBaseTick s = .next s := by
  show execTimeBaseTick s = _
  rw [execTimeBaseTick, h]; rfl

theorem exec_timeBaseTick_of_high {s : State} (h : s.sysrstn = true) :
    exec .timeBaseTick s = .next s.takeExpiries.countMicro := by
  show execTimeBaseTick s = _
  rw [execTimeBaseTick, if_pos h]

/-- A RUNNING lease with time left is not due (R67). -/
theorem State.leaseDue_eq_false {s : State} (h : s.lease.cond = .running → 1 ≤ s.lease.remaining) :
    s.leaseDue = false := by
  by_cases hrun : s.lease.cond = .running
  · simp [State.leaseDue, Nat.one_le_iff_ne_zero.1 (h hrun)]
  · simp [State.leaseDue, hrun]

/-- An elapsed time within the limit is not due (R139). -/
theorem Supervisor.due_eq_false {v : Supervisor}
    (h : v.state = .timing → ∀ e, v.elapsed = some e → e.toNat ≤ v.limit.toNat * 100) : v.due = false := by
  by_cases htiming : v.state = .timing
  · have hle : (v.elapsed.getD 0).toNat ≤ v.limit.toNat * Config.scanUnit := by
      cases he : v.elapsed with
      | none => exact Nat.zero_le _
      | some e => exact h htiming e he
    rw [Supervisor.due, decide_eq_false (Nat.not_lt.2 hle), Bool.and_false]
  · simp [Supervisor.due, htiming]

/-- A continuation time below 1 s is not due (R161). -/
theorem State.continuationDue_eq_false {s : State}
    (h : s.exch.state = .awaitContinue → ∃ t, s.exch.contTime = some t ∧ t < 1000000) : s.continuationDue = false := by
  by_cases hawait : s.exch.state = .awaitContinue
  · obtain ⟨t, ht, hlt⟩ := h hawait
    simp [State.continuationDue, ht, hlt]
  · simp [State.continuationDue, hawait]

theorem State.takeExpiries_of_none_due {s : State} (hl : s.leaseDue = false) (hv : s.sup.due = false)
    (hc : s.continuationDue = false) : s.takeExpiries = s := by
  simp [State.takeExpiries, hl, hv, hc]

/-- The expiries are those of the three commands, one after another (log entry 11). -/
theorem State.takeExpiries_of_exec {s x y u : State} (hx : exec .leaseExpiry s = .next x)
    (hy : exec .scanLimitExpiry x = .next y) (hu : exec .continuationLimit y = .next u) : s.takeExpiries = u := by
  cases hx; cases hy; cases hu; rfl

/-- The expiries take no time. -/
theorem State.takeExpiries_time (s : State) : s.takeExpiries.time = s.time := by
  have hlease (u : State) : (if u.leaseDue then u.expireLease else u).time = u.time := by
    split <;> rfl
  have hstall (u : State) : (if u.sup.due then u.enterStall else u).time = u.time := by
    split
    · obtain ⟨_, h⟩ := u.enterStall_changes; rw [h]
    · rfl
  have hcont (u : State) : (if u.continuationDue then u.endTransfer else u).time = u.time := by
    split
    · obtain ⟨_, _, _, _, h⟩ := u.endTransfer_changes; rw [h]
    · rfl
  exact ((hcont _).trans (hstall _)).trans (hlease s)

/-- Settles O23: a tick is the expiries that are due, and then one µs. -/
theorem timeBaseTicks : Obligations.TimeBaseTicks := by
  refine fun s => ⟨exec_timeBaseTick_of_low, fun hs hl hv hc => ⟨_, _, _, ?_, rfl, rfl, rfl⟩,
    fun hs x y u hx hy hu => ?_⟩
  · rw [exec_timeBaseTick_of_high hs, State.takeExpiries_of_none_due (State.leaseDue_eq_false hl)
      (Supervisor.due_eq_false hv) (State.continuationDue_eq_false hc), State.countMicro_eq]
  · have hexp := State.takeExpiries_of_exec hx hy hu
    have htime : u.time = s.time := hexp ▸ s.takeExpiries_time
    rw [exec_timeBaseTick_of_high hs, hexp, State.countMicro_eq, htime]

end Sys2Proof.Machine
end

section
/-! Access levels (file 04): the broadcasts acted on, LEVEL, SESSION CLEAR and RELEASE ALL. -/

namespace Sys2Proof.Machine

/-! ## Broadcast requests (R71, R157) -/

theorem exec_broadcastRequest {s : State} {c : RxChar} {payload : List Byte}
    (h : s.finalByte c = some (.broadcast payload)) :
    exec (.broadcastRequest c) s = .next (s.endFrame.endTransfer.actBroadcast payload) := by
  show execBroadcastRequest c s = _
  rw [execBroadcastRequest, h]

/-- A LEVEL asking for VIEW is its code, the level's code and any duration (R62). -/
theorem parseLevel_view {params : List Byte} {d : Nat} (h : parseLevel params = some (.view, d)) :
    ∃ hi lo, params = [0x00, hi, lo] := by
  obtain ⟨-, -, rfl⟩ := (parseLevel_some params .view d).1 h
  exact ⟨_, _, rfl⟩

theorem State.actBroadcast_releaseAll (s : State) : s.actBroadcast [0x21] = { s with forces := [] } := rfl

theorem State.actBroadcast_levelView (s : State) (hi lo : Byte) :
    s.actBroadcast [0x04, 0x00, hi, lo] = { s with forces := [], lease := ⟨.view, none, 0, .stopped⟩ } := rfl

/-- Every other broadcast is ignored. -/
theorem State.actBroadcast_of_other (s : State) {payload : List Byte} (hrelease : payload ≠ [0x21])
    (hlevel : ∀ hi lo, payload ≠ [0x04, 0x00, hi, lo]) : s.actBroadcast payload = s := by
  unfold State.actBroadcast
  split
  · rfl
  · split_ifs with hk hp hk'
    · exact absurd (by rw [hk, hp]) hrelease
    · rfl
    · split
      · rename_i hparse
        obtain ⟨hi, lo, rfl⟩ := parseLevel_view hparse
        exact absurd (by rw [hk']) (hlevel hi lo)
      · rfl
    · rfl

/-- Settles O27. -/
theorem broadcastsActed : Obligations.BroadcastsActed := by
  rintro s c payload h u rfl
  refine ⟨?_, ?_, fun hrelease hlevel => ?_⟩
  · rintro rfl
    rw [exec_broadcastRequest h, State.actBroadcast_releaseAll]
  · rintro hi lo rfl
    rw [exec_broadcastRequest h, State.actBroadcast_levelView]
  · rw [exec_broadcastRequest h, State.actBroadcast_of_other _ hrelease hlevel]

/-! ## LEVEL (R62, R63, R64, R173) -/

/-- A request replies with what its carrying out comes to, where the change made before it left the exchange as the taking
set it, and a lease that follows the turn. -/
theorem State.onRequest_replies_following {i : Instr} {s v : State} {c : RxChar} {code : Byte} {params : List Byte}
    {carryOut : List Byte → State → State} {st : Status} {data : List Byte} (hi : exec i s = s.onRequest c code carryOut)
    (h : s.Requests c (code :: params)) (hv : carryOut params (s.takeRequest code) = v.answer st data)
    (hcode : v.exch = (s.takeRequest code).exch) (hlease : v.lease.follow .sending = v.lease) :
    Replies i s v code st data := by
  refine ⟨v.answer st data, ?_, State.answer_answers v code st data ?_ hlease⟩
  · rw [hi, State.onRequest_requests s c code params carryOut h, hv]
  · rw [hcode, State.takeRequest_code]

/-- A lease granted above VIEW is PAUSED while the part holds the turn (R63, R65). -/
theorem Lease.follow_sending_of_paused {l : Lease} (hl : l.level ≠ .view) (hc : l.cond = .paused) :
    l.follow .sending = l :=
  Lease.ext rfl rfl rfl ((if_neg hl).trans hc.symm)

theorem doLevel_view {params : List Byte} {d : Nat} (h : parseLevel params = some (.view, d)) (u : State) :
    doLevel params u = u.dropToView.answer .ok [] := by
  rw [doLevel, h]

theorem doLevel_above {params : List Byte} {lv : Level} {d : Nat} (h : parseLevel params = some (lv, d))
    (hlv : lv ≠ .view) (u : State) : doLevel params u = (u.grantLevel lv d).answer .ok [] := by
  rw [doLevel, h]
  cases lv with
  | view => exact absurd rfl hlv
  | tune | service => rfl

theorem doLevel_none {params : List Byte} (h : parseLevel params = none) (u : State) :
    doLevel params u = u.answer .format [] := by
  rw [doLevel, h]

/-- Settles O37: by what the parameters parse to. -/
theorem levelGranted : Obligations.LevelGranted := by
  rintro s c params hreq u rfl
  refine ⟨fun lv d hlevel h1 h2 hlayout => ?_, fun d hd hlayout => ?_, fun hnone => ?_⟩
  · have hparse : parseLevel params = some (lv, d) := (parseLevel_some params lv d).2 ⟨by omega, .inr ⟨h1, h2⟩, hlayout⟩
    have hview : lv ≠ .view := by rcases hlevel with rfl | rfl <;> decide
    exact State.onRequest_replies_following rfl hreq (doLevel_above hparse hview _) rfl
      (Lease.follow_sending_of_paused hview rfl)
  · have hparse : parseLevel params = some (.view, d) := (parseLevel_some params .view d).2 ⟨hd, .inl rfl, hlayout⟩
    exact State.onRequest_replies_following rfl hreq (doLevel_view hparse _) rfl rfl
  · have hparse : parseLevel params = none := Option.eq_none_iff_forall_ne_some.2 fun ⟨lv, d⟩ hp => by
      obtain ⟨hd, hrange, hlayout⟩ := (parseLevel_some params lv d).1 hp
      exact hnone lv d hrange hd hlayout
    exact State.onRequest_replies rfl hreq (doLevel_none hparse _) rfl rfl

/-! ## SESSION CLEAR and RELEASE ALL (R56, R72) -/

/-- Q does not wait over ACTIVE operations (R14, R87). -/
theorem headWaits_filter_active (ops : List Operation) : headWaits (ops.filter Operation.active) = false := by
  cases hops : ops.filter Operation.active with
  | nil => rfl
  | cons o rest =>
    have hact : o.active = true := (List.mem_filter.1 (hops ▸ List.mem_cons_self)).2
    rw [headWaits, hact]; rfl

/-- What SESSION CLEAR changes, of the state its request was taken from. -/
theorem State.clearSession_takeRequest (s : State) (code : Byte) :
    (s.takeRequest code).clearSession = { s.takeRequest code with
      lease := ⟨.view, none, 0, .stopped⟩, forces := [], ops := s.ops.filter (fun o => o.active),
      arb := { s.arb with waitF := false, waitQ := false },
      watch := ⟨[], [], s.watch.generation + 1, .off⟩, fill := none, missed := 0, bankA := Bank.empty,
      bankB := Bank.empty } := by
  simp only [State.clearSession, State.dropToView, State.releaseAll_arb, State.takeRequest_ops, State.takeRequest_arb,
    State.takeRequest_watch, headWaits_filter_active]
  rfl

/-- Settles O38: each request by its parameters, and the broadcast among those ignored. -/
theorem sessionCleared : Obligations.SessionCleared := by
  refine fun s c params => ⟨?_, ?_⟩
  · rintro u rfl
    refine ⟨fun hreq => ?_, fun hparams hreq => withoutParams_format rfl hparams hreq, fun hbroadcast => ?_⟩
    · rw [← State.clearSession_takeRequest]
      exact State.onRequest_replies_following rfl hreq rfl rfl rfl
    · rw [exec_broadcastRequest hbroadcast, State.actBroadcast_of_other _ (by simp) (by simp)]
  · rintro u rfl
    exact ⟨fun hreq => State.onRequest_replies rfl hreq rfl rfl rfl,
      fun hparams hreq => withoutParams_format rfl hparams hreq⟩

end Sys2Proof.Machine
end

section
/-! The Operation Queue (R74 to R80, R83): operations join it, pass its head and retire, and end at memory. -/

namespace Sys2Proof.Machine

/-! ## The head lookup (R76) -/

section
variable {regions : List Region} {gone : List Operation}
  (h : ∀ g ∈ gone, g.cls = none ∧ (lookup regions g.addr).isAbsent = true)
include h

/-- ABSENT operations pass the head together. -/
theorem settleOps_append_of_absent (ops : List Operation) (c : Option Completion) :
    settleOps regions (gone ++ ops) c = settleOps regions ops (gone.foldl (fun c g => handOn c g 0) c) := by
  induction gone generalizing c with
  | nil => rfl
  | cons g rest ih =>
    rw [List.forall_mem_cons] at h
    obtain ⟨⟨hcls, habsent⟩, hrest⟩ := h
    rw [List.cons_append, settleOps, hcls]
    dsimp only
    rw [if_pos habsent]
    exact ih hrest _

/-- A queue of ABSENT operations alone passes the head to its end. -/
theorem settleOps_of_absent (c : Option Completion) :
    settleOps regions gone c = ([], gone.foldl (fun c g => handOn c g 0) c) := by
  have hall := settleOps_append_of_absent h [] c
  rwa [List.append_nil] at hall

/-- Behind ABSENT operations the first other one holds its classification. -/
theorem settleOps_of_absent_then {nx : Operation} (hcls : nx.cls = none)
    (hnx : (lookup regions nx.addr).isAbsent = false) (rest : List Operation) (c : Option Completion) :
    settleOps regions (gone ++ nx :: rest) c =
      ({ nx with cls := some (lookup regions nx.addr) } :: rest, gone.foldl (fun c g => handOn c g 0) c) := by
  rw [settleOps_append_of_absent h, settleOps, hcls]
  dsimp only
  rw [if_neg (Bool.eq_false_iff.1 hnx)]

end

/-- The state with the queue and the record that a head lookup leaves, and Q's claim after it (R14, R76). -/
def State.afterLookup (s : State) (found : List Operation × Option Completion) : State :=
  { s with ops := found.1, completion := found.2, arb := { s.arb with waitQ := headWaits found.1 } }

theorem State.settleHead_eq (s : State) : s.settleHead = s.afterLookup (settleOps s.regions s.ops s.completion) := rfl

/-- A lookup that leaves the queue and Q's claim changes the record alone. -/
theorem State.afterLookup_of_same {s : State} {ops : List Operation} (hops : ops = s.ops)
    (hwait : headWaits ops = s.arb.waitQ) (c : Option Completion) :
    s.afterLookup (ops, c) = { s with completion := c } := by
  subst hops
  rw [State.afterLookup, hwait]

/-! ## The examination of the record (R83) -/

theorem State.examineRecord_of_ops_ne_nil {s : State} (h : s.ops ≠ []) : s.examineRecord = s := by
  unfold State.examineRecord
  split
  · exact absurd ‹s.ops = []› h
  · rfl

theorem State.examineRecord_of_no_record {s : State} (h : s.completion = none) : s.examineRecord = s := by
  rw [State.examineRecord, h]

theorem State.examineRecord_of_satisfied {s : State} {r : Completion} (hops : s.ops = []) (hr : s.completion = some r) :
    s.examineRecord = { s with completion := none }.answer .ok r.data := by
  rw [State.examineRecord, hops, hr]

/-- A satisfied record is answered, with the lease at the condition the turn gives it (R65, R83). -/
theorem State.examineRecord_answers {s : State} {r : Completion} {code : Byte} (hops : s.ops = [])
    (hr : s.completion = some r) (hcode : s.exch.code = some code) :
    ({ s with completion := none, lease := s.lease.follow .sending } : State).Answers s.examineRecord code .ok r.data := by
  rw [State.examineRecord_of_satisfied hops hr]
  exact State.answer_answers { s with completion := none, lease := s.lease.follow .sending } code .ok r.data hcode rfl

/-- The reply of a PEEK carries its words in the order of their positions. -/
theorem Completion.data_peek (words : List Word) :
    (Completion.peek (words.map some)).data = words.flatMap (fun w => field 2 w.toNat) := by
  simp only [Completion.data, field_two, List.flatMap_def, List.map_map]
  rfl

/-! ## A grant decision keeps the operations of the queue -/

theorem State.decideGrant_ops_ne_nil {s : State} (h : s.ops ≠ []) : s.decideGrant.ops ≠ [] := by
  rcases s.arb.goesTo_cases with hC | hF | hQ | hnone
  · obtain ⟨_, _, hgrant⟩ := State.grantC_changes
      { s with arb := { s.arb with count := if s.arb.engineWaits then s.arb.count + 1 else 0 } }
    rw [State.decideGrant_of_goesToC hC, State.grantController, hgrant]
    exact h
  · obtain ⟨_, _, hgrant⟩ := State.grantF_changes { s with arb := { s.arb with count := 0, lastEngine := .f } }
    rw [State.decideGrant_of_goesToF hF]
    exact fun hnil => h (by rwa [State.grantEngine, hgrant] at hnil)
  · rw [State.decideGrant_of_goesToQ hQ]
    obtain ⟨o, rest, ho⟩ := List.exists_cons_of_ne_nil h
    cases hk : o.kind with
    | write d =>
      rw [State.grantEngine_q_write ho hk, State.grantWrite_ops]
      exact List.cons_ne_nil _ _
    | read | modify =>
      rw [State.grantEngine_q_read ho (by simp [hk])]
      exact List.cons_ne_nil _ _
  · rwa [State.decideGrant_of_none_waits hnone]

/-! ## Joining and retiring (R75, R76, R80) -/

/-- Where the access path is in order, arrivals that leave the arbiter as it stands make no decision: at a port that is free
and unreserved nobody waits (R15). -/
theorem State.PathOk.claimArrives_of_same_arb {s t : State} (h : s.PathOk) (harb : t.arb = s.arb) :
    t.claimArrives s.arb = t := by
  obtain ⟨-, -, -, -, -, -, -, hidle⟩ := h
  unfold State.claimArrives
  split
  · rename_i hfree
    rw [Bool.and_eq_true] at hfree
    exact State.decideGrant_of_none_waits (harb ▸ hidle hfree.1)
  · rfl

/-- Behind a head that has been looked up operations only join the tail. -/
theorem State.enqueue_of_ops_ne_nil {s : State} (hqueue : s.queueOk = true) (hpath : s.PathOk) (hops : s.ops ≠ [])
    (new : List Operation) : s.enqueue new = { s with ops := s.ops ++ new } := by
  obtain ⟨o, rest, ho⟩ := List.exists_cons_of_ne_nil hops
  obtain ⟨hcls, -⟩ := State.waiting_behind hqueue ho
  have hwait : s.arb.waitQ = headWaits s.ops := by
    obtain ⟨-, -, -, hhead, -⟩ := hpath
    rw [State.headOk, Bool.and_eq_true, decide_eq_true_eq] at hhead
    exact hhead.1
  have hsettle : ({ s with ops := s.ops ++ new } : State).settleHead = { s with ops := s.ops ++ new } := by
    have hlook : settleOps s.regions (s.ops ++ new) s.completion = (s.ops ++ new, s.completion) := by
      rw [ho, List.cons_append, settleOps_of_looked_up hcls]
    rw [State.settleHead_eq, hlook]
    exact State.afterLookup_of_same (s := { s with ops := s.ops ++ new }) rfl (by rw [hwait, ho]; rfl) _
  rw [State.enqueue, hsettle, hpath.claimArrives_of_same_arb (t := { s with ops := s.ops ++ new }) rfl]
  exact State.examineRecord_of_ops_ne_nil (List.append_ne_nil_of_left_ne_nil hops new)

/-- Operations that join an empty queue are looked up, and a claim of Q is decided at a port that is free, unreserved and
without a waiting claimant. -/
theorem State.enqueue_of_empty {s : State} (hops : s.ops = []) (hwait : s.arb.waitQ = false) (new : List Operation) :
    s.enqueue new =
      let u := s.afterLookup (settleOps s.regions new s.completion)
      (if s.arb.grant = none ∧ s.arb.reservation = none ∧ s.arb.waitC = false ∧ s.arb.waitF = false then u.decideGrant
        else u).examineRecord := by
  have hfree : (s.arb.free && !s.arb.anyWaits) = true
      ↔ s.arb.grant = none ∧ s.arb.reservation = none ∧ s.arb.waitC = false ∧ s.arb.waitF = false := by
    simp [Arbiter.free, Arbiter.anyWaits, Arbiter.engineWaits, hwait, and_assoc]
  have hsettle : ({ s with ops := s.ops ++ new } : State).settleHead =
      s.afterLookup (settleOps s.regions new s.completion) := by
    rw [hops]; rfl
  simp only [State.enqueue, hsettle, State.claimArrives, hfree]

/-- Where every operation that joins an empty queue passes the head, the record alone changes, and is then examined. -/
theorem State.enqueue_of_absent {s : State} {gone : List Operation} (hops : s.ops = []) (hwait : s.arb.waitQ = false)
    (h : ∀ g ∈ gone, g.cls = none ∧ (lookup s.regions g.addr).isAbsent = true) :
    s.enqueue gone = { s with completion := gone.foldl (fun c g => handOn c g 0) s.completion }.examineRecord := by
  rw [State.enqueue_of_empty hops hwait, settleOps_of_absent h, State.afterLookup_of_same hops.symm hwait.symm]
  dsimp only
  split
  · rename_i hfree
    obtain ⟨-, -, hC, hF⟩ := hfree
    have hnone : s.arb.anyWaits = false := by simp [Arbiter.anyWaits, Arbiter.engineWaits, hC, hF, hwait]
    exact congrArg State.examineRecord (State.decideGrant_of_none_waits hnone)
  · rfl

/-- The head retires: its grant ends, the queue behind it is looked up, and a decision is made. -/
theorem State.retireHead_eq {s : State} {o : Operation} {rest : List Operation} (hops : s.ops = o :: rest) (w : Word) :
    s.retireHead w =
      (s.endGrant.afterLookup (settleOps s.regions rest (handOn s.completion o w))).decideGrant.examineRecord := by
  rw [State.retireHead, hops]; rfl

/-! ## The result of an operation (R80, R83, R86) -/

theorem handOn_read {o : Operation} {i : Nat} (hk : o.kind = .read i) (hd : o.dropped = false)
    (results : List (Option Word)) (w : Word) :
    handOn (some (.peek results)) o w = some (.peek (results.set i (some w))) := by
  rw [handOn, hk, hd]; rfl

theorem handOn_of_dropped {o : Operation} (hd : o.dropped = true) (c : Option Completion) (w : Word) :
    handOn c o w = c := by
  unfold handOn
  split
  · rw [if_pos hd]
  · rfl
  · rfl

theorem handOn_of_not_read {o : Operation} (hk : ∀ i, o.kind ≠ .read i) (c : Option Completion) (w : Word) :
    handOn c o w = c := by
  unfold handOn
  split
  · exact absurd ‹_› (hk _)
  · rfl
  · rfl

/-- Without the record of a PEEK a word has no position. -/
theorem handOn_of_no_peek {c : Option Completion} (hc : ∀ results, c ≠ some (.peek results)) (o : Operation) (w : Word) :
    handOn c o w = c := by
  have hput (i : Nat) : c.map (·.put i w) = c := by
    match c, hc with
    | none, _ => rfl
    | some .sync, _ => rfl
    | some (.peek results), hc => exact absurd rfl (hc results)
  unfold handOn
  split
  · rw [hput, ite_self]
  · rfl
  · rfl

/-- Settles O9: joining behind a looked-up head, retiring by the head lookup of what stands behind, and the handing on. -/
theorem queueOrder : Obligations.QueueOrder := by
  refine ⟨fun s new hqueue hpath hops => State.enqueue_of_ops_ne_nil hqueue hpath hops new, ?_, ?_,
    fun o i results w hk hd => handOn_read hk hd results w, ?_⟩
  · rintro s w o gone nx rest hops hgone hcls hact hnx c rfl
    rw [State.retireHead_eq hops, settleOps_of_absent_then hgone hcls hnx, State.examineRecord_of_ops_ne_nil
      (State.decideGrant_ops_ne_nil (List.cons_ne_nil _ _)), State.afterLookup, headWaits, hact]
    rfl
  · rintro s w o gone hops hgone c rfl
    rw [State.retireHead_eq hops, settleOps_of_absent hgone]
    rfl
  · rintro o c w (hd | hk | hc)
    · exact handOn_of_dropped hd c w
    · exact handOn_of_not_read hk c w
    · exact handOn_of_no_peek hc o w

/-- Settles O39: by the head lookup of the operations that join, and the record after it. -/
theorem emptyQueueJoined : Obligations.EmptyQueueJoined := by
  rintro s gone hops hwait hgone r rfl
  have hjoin := State.enqueue_of_absent hops hwait hgone
  refine ⟨?_, fun hr => ?_, ?_⟩
  · rintro nx rest u hcls hact hnx rfl
    rw [State.enqueue_of_empty hops hwait, settleOps_of_absent_then hgone hcls hnx, State.afterLookup, headWaits, hact]
    refine State.examineRecord_of_ops_ne_nil ?_
    split
    · exact State.decideGrant_ops_ne_nil (List.cons_ne_nil _ _)
    · exact List.cons_ne_nil _ _
  · rw [hjoin, hr]
    exact State.examineRecord_of_no_record rfl
  · rintro code u hcode rfl
    refine ⟨fun hr => ?_, fun words hr => ?_⟩
    · rw [hjoin, hr]
      exact State.examineRecord_answers (s := { s with completion := some .sync }) hops rfl hcode
    · rw [hjoin, hr, ← Completion.data_peek]
      exact State.examineRecord_answers (s := { s with completion := some (.peek (words.map some)) }) hops rfl hcode

/-! ## At memory (R77, R78, R79) -/

theorem exec_readOperationDataReturn {s : State} {a : Addr} {o : Operation} {rest : List Operation} {i : Nat}
    (hg : s.arb.grant = some ⟨.q, .read⟩) (hm : s.mport = .reading a) (ho : s.ops = o :: rest) (hk : o.kind = .read i) :
    exec .readOperationDataReturn s = .next (s.retireHead (overlay s.forces o.held a (s.mem.readWord a))) := by
  show execReadOperationDataReturn s = _
  simp only [execReadOperationDataReturn, hg, hm, ho, hk]

section
variable {s : State} {a : Addr} {d : Word} {lanes : Lanes} {o : Operation} {rest : List Operation}
  (hg : s.arb.grant = some ⟨.q, .write⟩) (hm : s.mport = .writing a d lanes) (ho : s.ops = o :: rest)
include hg hm ho

theorem exec_writeOperationReachesMemory {w : Word} (hk : o.kind = .write w) :
    exec .writeOperationReachesMemory s = .next ({ s with mem := s.mem.writeWord a d lanes }.retireHead 0) := by
  show execWriteOperationReachesMemory s = _
  simp only [execWriteOperationReachesMemory, hg, hm, ho, hk]

theorem exec_modifyWriteReachesMemory {st cl : Word} (hk : o.kind = .modify st cl) :
    exec .modifyWriteReachesMemory s = .next ({ s with mem := s.mem.writeWord a d lanes }.retireHead 0) := by
  show execModifyWriteReachesMemory s = _
  simp only [execModifyWriteReachesMemory, hg, hm, ho, hk]

end

/-- Settles O19: the overlay of the word read, the bytes of the lanes written, and the retirement that leaves memory. -/
theorem operationsEnd : Obligations.OperationsEnd := by
  constructor
  · intro s a o rest i hg hm ho hk
    exact ⟨_, overlaid_overlay s.forces o.held a (s.mem.readWord a), exec_readOperationDataReturn hg hm ho hk,
      s.retireHead_mem _⟩
  · intro s a d lanes o rest hwf hg hm ho
    exact ⟨_, Memory.readByte_writeWord s.mem hwf a d lanes,
      fun ⟨_, hk⟩ => exec_writeOperationReachesMemory hg hm ho hk,
      fun ⟨_, _, hk⟩ => exec_modifyWriteReachesMemory hg hm ho hk, State.retireHead_mem _ 0⟩

end Sys2Proof.Machine
end

section
/-! PEEK, SYNC and POKE (R82, R84, R85, R175 to R177): their checks in their order and the operations they queue. -/

namespace Sys2Proof.Machine

/-! ## The words of a run (R26, R168) -/

theorem outOfRange_iff (regions : List Region) (n : Nat) : outOfRange regions n = true ↔ ¬ Named regions n := by
  rw [outOfRange, Bool.or_eq_true, decide_eq_true_eq, Classification.isUnmapped_iff, not_and_or, Nat.not_le, not_not]

/-- The RANGE check of a run: some word of it is not named. -/
theorem any_outOfRange_iff (regions : List Region) (a : Addr) (n : Nat) :
    (runAddresses a n).any (outOfRange regions) = true ↔ ∃ k, k < n ∧ ¬ Named regions (a.toNat + k) := by
  simp only [runAddresses, List.any_map, List.any_eq_true, List.mem_range, Function.comp_apply, outOfRange_iff]

theorem any_outOfRange_of_named {regions : List Region} {a : Addr} {n : Nat}
    (h : ∀ k, k < n → Named regions (a.toNat + k)) : ¬ (runAddresses a n).any (outOfRange regions) = true := by
  rw [any_outOfRange_iff]
  rintro ⟨k, hk, hnot⟩
  exact hnot (h k hk)

/-- A check of the classes of a run finds some word of it. -/
theorem any_runClasses_iff (regions : List Region) (a : Addr) (n : Nat) (p : Option RegionClass → Bool) :
    (runClasses regions a n).any p = true ↔ ∃ k, k < n ∧ p (classAt regions (a.toNat + k)) = true := by
  simp only [runClasses, runAddresses, List.map_map, List.any_map, List.any_eq_true, List.mem_range]
  rfl

/-! ## PEEK and SYNC -/

/-- Parameters that are the layout of no run of 1 to 32 words fail FORMAT. -/
theorem doPeek_of_no_layout {params : List Byte} (h : ∀ a n, 1 ≤ n → n ≤ 32 → params ≠ peekLayout a n) (u : State) :
    doPeek params u = u.answer .format [] := by
  have hparse : parsePeek params = none := Option.eq_none_iff_forall_ne_some.2 fun ⟨a, n⟩ hp => by
    obtain ⟨h1, h32, hlayout⟩ := (parsePeek_some params a n).1 hp
    exact h a n h1 h32 hlayout
  rw [doPeek, hparse]

/-- PEEK of a run, on a request taken: the checks that follow FORMAT read the state it was taken from. -/
theorem doPeek_taken {params : List Byte} {a : Addr} {n : Nat} (h : parsePeek params = some (a, n)) (s : State) :
    doPeek params (s.takeRequest 0x10) =
      let u := s.takeRequest 0x10
      if (runAddresses a n).any (outOfRange s.regions) then u.answer .range []
      else if 32 - s.ops.length < n then u.answer .queueFull []
      else u.acceptPeek a n := by
  simp only [doPeek, h, State.freePlaces, State.takeRequest_regions, State.takeRequest_ops, Config.queueCapacity]

/-- Settles O40: by what the parameters parse to, and for SYNC by the queue it finds. -/
theorem peekAndSyncTaken : Obligations.PeekAndSyncTaken := by
  refine fun s c params => ⟨?_, ?_⟩
  · rintro hreq u rfl
    refine ⟨fun a n h1 h32 hlayout => ?_, fun hnone => ?_⟩
    · have hd := doPeek_taken ((parsePeek_some params a n).2 ⟨h1, h32, hlayout⟩) s
      refine ⟨fun hrange => ?_, fun hnamed => ?_⟩
      · exact State.onRequest_replies rfl hreq (hd.trans (if_pos ((any_outOfRange_iff s.regions a n).2 hrange))) rfl rfl
      · rw [if_neg (any_outOfRange_of_named hnamed)] at hd
        refine ⟨fun hfull => ?_, fun hroom => ?_⟩
        · exact State.onRequest_replies rfl hreq (hd.trans (if_pos (by omega))) rfl rfl
        · rw [if_neg (by omega)] at hd
          exact (State.onRequest_requests s c 0x10 params doPeek hreq).trans (congrArg _ hd)
    · exact State.onRequest_replies rfl hreq (doPeek_of_no_layout hnone _) rfl rfl
  · rintro u rfl
    refine ⟨fun hreq hops => ?_, fun hreq hops => ?_, fun hparams hreq => withoutParams_format rfl hparams hreq⟩
    · have hempty : (s.takeRequest 0x12).ops = [] := (s.takeRequest_ops 0x12).trans hops
      exact State.onRequest_replies (v := { s.takeRequest 0x12 with completion := none }) rfl hreq
        (State.examineRecord_of_satisfied (s := { s.takeRequest 0x12 with completion := some .sync }) hempty rfl) rfl rfl
    · have hheld : (s.takeRequest 0x12).ops ≠ [] := by rwa [State.takeRequest_ops]
      exact (State.onRequest_requests s c 0x12 [] _ hreq).trans (congrArg _
        (State.examineRecord_of_ops_ne_nil (s := { s.takeRequest 0x12 with completion := some .sync }) hheld))

/-! ## POKE -/

/-- The WRITEs of a POKE are its words at ascending addresses, counted from any number. -/
theorem pokeOps_eq_from (a : Addr) (ws : List Word) (n : Nat) :
    pokeOps (a + BitVec.ofNat 20 n) ws = (ws.zipIdx n).map (fun (w : Word × Nat) =>
      (⟨.write w.1, a + BitVec.ofNat 20 w.2, .poke, false, none, false⟩ : Operation)) := by
  induction ws generalizing n with
  | nil => rfl
  | cons w rest ih =>
    have hnext : a + BitVec.ofNat 20 n + 1 = a + BitVec.ofNat 20 (n + 1) := by
      rw [BitVec.ofNat_add, BitVec.add_assoc]; rfl
    rw [pokeOps, hnext, ih, List.zipIdx_cons, List.map_cons]

theorem pokeOps_eq (a : Addr) (ws : List Word) : pokeOps a ws = ws.zipIdx.map (fun (w : Word × Nat) =>
    (⟨.write w.1, a + BitVec.ofNat 20 w.2, .poke, false, none, false⟩ : Operation)) := by
  have hfrom := pokeOps_eq_from a ws 0
  rwa [BitVec.add_zero] at hfrom

/-- The CLASS check at TUNE: some word is of class INPUT or PROGRAM. -/
theorem any_pokeNeedsService_iff (regions : List Region) (a : Addr) (n : Nat) :
    (runClasses regions a n).any pokeNeedsService = true ↔
      ∃ k, k < n ∧ (classAt regions (a.toNat + k) = some .input ∨ classAt regions (a.toNat + k) = some .program) := by
  simp only [any_runClasses_iff, pokeNeedsService, Bool.or_eq_true, decide_eq_true_eq]

/-- The RUNNING check: some word is of class PROGRAM. -/
theorem any_program_iff (regions : List Region) (a : Addr) (n : Nat) :
    (runClasses regions a n).any (· = some .program) = true ↔
      ∃ k, k < n ∧ classAt regions (a.toNat + k) = some .program := by
  simp only [any_runClasses_iff, decide_eq_true_eq]

/-- Parameters that are the layout of no run of 1 to 24 data words fail FORMAT. -/
theorem doPoke_of_no_layout {params : List Byte}
    (h : ∀ a ws, 1 ≤ ws.length → ws.length ≤ 24 → params ≠ pokeLayout a ws) (u : State) :
    doPoke params u = u.answer .format [] := by
  have hparse : parsePoke params = none := Option.eq_none_iff_forall_ne_some.2 fun ⟨a, ws⟩ hp => by
    obtain ⟨h1, h24, hlayout⟩ := (parsePoke_some params a ws).1 hp
    exact h a ws h1 h24 hlayout
  rw [doPoke, hparse]

/-- POKE of a run, on a request taken: the checks that follow FORMAT read the state it was taken from. -/
theorem doPoke_taken {params : List Byte} {a : Addr} {ws : List Word} (h : parsePoke params = some (a, ws)) (s : State) :
    doPoke params (s.takeRequest 0x11) =
      let u := s.takeRequest 0x11
      let classes := runClasses s.regions a ws.length
      if s.lease.level = .view then u.answer .level []
      else if (runAddresses a ws.length).any (outOfRange s.regions) then u.answer .range []
      else if s.lease.level = .tune ∧ classes.any pokeNeedsService = true then u.answer .cls []
      else if s.ctlrun = true ∧ classes.any (· = some .program) = true then u.answer .running []
      else if 32 - s.ops.length < ws.length then u.answer .queueFull []
      else (u.enqueue (pokeOps a ws)).answer .ok [] := by
  simp only [doPoke, h, State.freePlaces, State.takeRequest_level, State.takeRequest_regions, State.takeRequest_ops,
    State.takeRequest_ctlrun, Config.queueCapacity, Bool.and_eq_true, decide_eq_true_eq]

/-- Settles O41: by what the parameters parse to. RUNNING is judged at any level above VIEW in the model, but at TUNE a
PROGRAM word has failed CLASS before it. -/
theorem pokeTaken : Obligations.PokeTaken := by
  rintro s c params hreq u rfl
  refine ⟨?_, fun hnone => ?_⟩
  · intro a ws h1 h24 hlayout some1
    have hd := doPoke_taken ((parsePoke_some params a ws).2 ⟨h1, h24, hlayout⟩) s
    have hcls := any_pokeNeedsService_iff s.regions a ws.length
    have hprogram := any_program_iff s.regions a ws.length
    refine ⟨fun hview => ?_, fun hview => ⟨fun hrange => ?_, fun hnamed => ?_⟩⟩
    · exact State.onRequest_replies rfl hreq (hd.trans (if_pos hview)) rfl rfl
    · refine State.onRequest_replies rfl hreq (hd.trans ?_) rfl rfl
      rw [if_neg hview, if_pos ((any_outOfRange_iff s.regions a ws.length).2 hrange)]
    · simp only [hcls, hprogram, if_neg hview, if_neg (any_outOfRange_of_named hnamed)] at hd
      refine ⟨fun hbarred => ?_, fun ⟨hservice, hrun, hword⟩ => ?_, fun hallowed hstopped => ?_⟩
      · exact State.onRequest_replies rfl hreq (hd.trans (if_pos hbarred)) rfl rfl
      · refine State.onRequest_replies rfl hreq (hd.trans ?_) rfl rfl
        rw [if_neg (by simp [hservice]), if_pos ⟨hrun, hword⟩]
      · have hquiet : ¬ (s.ctlrun = true ∧ some1 (fun k => k = some .program)) := by
          rintro ⟨hrun, k, hk, hp⟩
          cases hlevel : s.lease.level with
          | view => exact hview hlevel
          | tune => exact hallowed ⟨hlevel, k, hk, .inr hp⟩
          | service => exact hstopped ⟨hlevel, hrun, k, hk, hp⟩
        rw [if_neg hallowed, if_neg hquiet, pokeOps_eq] at hd
        refine ⟨fun hfull => ?_, fun hroom => ?_⟩
        · exact State.onRequest_replies rfl hreq (hd.trans (if_pos (by omega))) rfl rfl
        · exact State.onRequest_replies_enqueued rfl hreq (hd.trans (if_neg (by omega))) rfl rfl
  · exact State.onRequest_replies rfl hreq (doPoke_of_no_layout hnone _) rfl rfl

end Sys2Proof.Machine
end

section
/-! The expansion of a Watch List (R93): where the elements of an item stand. -/

namespace Sys2Proof.Machine

/-- The words of a GRID item stand group after group. -/
theorem getElem?_flatMap_range (f : Nat → Nat → Nat) {n g h i : Nat} (hh : h < g) (hi : i < n) :
    ((List.range g).flatMap (fun j => (List.range n).map (f j)))[h * n + i]? = some (f h i) := by
  induction g with
  | zero => exact absurd hh h.not_lt_zero
  | succ g ih =>
    have hlen : ((List.range g).flatMap (fun j => (List.range n).map (f j))).length = g * n := by simp
    rw [List.range_succ, List.flatMap_append, List.flatMap_singleton]
    rcases Nat.lt_succ_iff_lt_or_eq.1 hh with hlt | rfl
    · have hin : h * n + i < g * n := calc
        h * n + i < (h + 1) * n := by rw [Nat.succ_mul]; omega
        _ ≤ g * n := Nat.mul_le_mul_right n hlt
      rw [List.getElem?_append_left (hlen.symm ▸ hin), ih hlt]
    · rw [List.getElem?_append_right (by omega), hlen, Nat.add_sub_cancel_left, List.getElem?_map,
        List.getElem?_range hi]
      rfl

/-- The elements of an item come after those of the items before it, each with the index of the item (R92, R93). -/
theorem expandFrom_getElem? {items : List WatchItem} {k : Nat} {it : WatchItem} (hk : items[k]? = some it) (m : Nat)
    {j a : Nat} (hj : it.addresses[j]? = some a) :
    (expandFrom m items)[((items.take k).map WatchItem.elementCount).sum + j]? = some ⟨BitVec.ofNat 20 a, m + k⟩ := by
  induction items generalizing k m with
  | nil => cases hk
  | cons x rest ih =>
    rw [expandFrom]
    cases k with
    | zero =>
      obtain rfl : x = it := Option.some.inj hk
      obtain ⟨hlt, -⟩ := List.getElem?_eq_some_iff.1 hj
      rw [List.take_zero, List.map_nil, List.sum_nil, Nat.zero_add,
        List.getElem?_append_left (by rwa [List.length_map]), List.getElem?_map, hj]
      rfl
    | succ k =>
      rw [List.take_succ_cons, List.map_cons, List.sum_cons, Nat.add_assoc,
        List.getElem?_append_right (by rw [List.length_map, x.addresses_length]; omega),
        List.length_map, x.addresses_length, Nat.add_sub_cancel_left, ih hk (m + 1), Nat.add_right_comm, Nat.add_assoc]

/-- Settles O45: the place of an element is that of its address in its item, which each kind gives. -/
theorem itemsExpand : Obligations.ItemsExpand := by
  intro items count
  have hcount : count = WatchItem.elementCount := funext fun it => by cases it <;> rfl
  rw [hcount]
  refine ⟨expandFrom_length 0 items, ?_⟩
  intro k it hk first stands
  have hstands : ∀ j a, it.addresses[j]? = some a → stands j a := fun j a hj => by
    have h := expandFrom_getElem? hk 0 hj
    rwa [Nat.zero_add] at h
  cases it with
  | bit b _ => exact hstands 0 _ rfl
  | word b => exact hstands 0 _ rfl
  | pair b => exact ⟨hstands 0 _ rfl, hstands 1 _ rfl⟩
  | block b n st =>
    intro i hi
    refine hstands i _ ?_
    rw [WatchItem.addresses, List.getElem?_map, List.getElem?_range hi]
    rfl
  | grid b n st g gs =>
    intro h hh i hi
    exact hstands _ _ (getElem?_flatMap_range (fun h i => b.toNat + h * gs + i * st) hh hi)

end Sys2Proof.Machine
end

section
/-! WATCH DEFINE and WATCH APPEND (R97 to R100): their checks in their order and the list they leave. -/

namespace Sys2Proof.Machine

/-! ## The checks (R94) and the reply (R181) -/

/-- The RANGE check of R94: some element of some item is not named. -/
theorem itemsOutOfRange_iff (regions : List Region) (items : List WatchItem) :
    itemsOutOfRange regions items = true ↔ ∃ it ∈ items, ∃ n ∈ it.addresses, ¬ Named regions n := by
  simp only [itemsOutOfRange, List.any_eq_true, outOfRange_iff]

/-- The elements of a list are as many as the addresses of its items. -/
theorem expandItems_length (items : List WatchItem) :
    (expandItems items).length = (items.flatMap WatchItem.addresses).length := by
  simp only [expandItems, expandFrom_length, List.length_flatMap, WatchItem.addresses_length]

/-- The FULL check of R94: the list would have more than 64 items or more than 256 elements. -/
theorem itemsExceed_iff (items : List WatchItem) :
    itemsExceed items = true ↔ 64 < items.length ∨ 256 < (items.flatMap WatchItem.addresses).length := by
  rw [← expandItems_length, expandItems, expandFrom_length, itemsExceed, Bool.or_eq_true, decide_eq_true_eq,
    decide_eq_true_eq]

/-- A generation number in its field, one on from another: both wrap at 65536 (R96). -/
theorem field_two_succ (g : BitVec 16) : field 2 (g.toNat + 1) = bytes2 (g + 1) := by
  rw [field_two_ofNat, bytes2Of, BitVec.ofNat_add, BitVec.ofNat_toNat, BitVec.setWidth_eq]
  rfl

/-- The reply's data for a list put in place (R181). -/
theorem Watch.summary_replace (w : Watch) (list : List WatchItem) : (w.replace list).summary =
    field 2 (w.generation.toNat + 1) ++ field 1 list.length
      ++ field 2 (list.flatMap WatchItem.addresses).length := by
  rw [field_two_succ, field_one, field_two_ofNat, ← expandItems_length]
  rfl

/-! ## The change of the list (R97, R99, R100) -/

/-- The checks after FORMAT and the change, on a request taken: they read the state it was taken from. -/
theorem State.changeWatch_taken (s : State) (code : Byte) (new list : List WatchItem) :
    (s.takeRequest code).changeWatch new list =
      let u := s.takeRequest code
      let w := s.watch.replace list
      if itemsOutOfRange s.regions new then u.answer .range []
      else if s.anyFilling then u.answer .busy []
      else if itemsExceed list then u.answer .full []
      else { u with watch := w }.answer .ok w.summary := by
  simp only [State.changeWatch, State.takeRequest_regions, State.takeRequest_anyFilling, State.takeRequest_watch]

/-- What a request of the items new, which makes the list into list, replies after its FORMAT check (R97, R99, R100). -/
def ChangeJudged (i : Instr) (s : State) (code : Byte) (new list : List WatchItem) : Prop :=
  let u := s.takeRequest code
  let full : Prop := 64 < list.length ∨ 256 < (list.flatMap WatchItem.addresses).length
  let filling : Prop := s.bankA.state = .filling ∨ s.bankB.state = .filling
  ((∃ it ∈ new, ∃ n ∈ it.addresses, ¬ Named s.regions n) → Replies i s u code .range [])
  ∧ ((∀ it ∈ new, ∀ n ∈ it.addresses, Named s.regions n) →
    (filling → Replies i s u code .busy [])
    ∧ (¬ filling → full → Replies i s u code .full [])
    ∧ (¬ filling → ¬ full → Replies i s { u with watch := s.watch.replace list } code .ok
        (field 2 (s.watch.generation.toNat + 1) ++ field 1 list.length
          ++ field 2 (list.flatMap WatchItem.addresses).length)))

/-- A request that comes to the change of the list is judged in the order RANGE, BUSY, FULL. -/
theorem changeJudged_of_changeWatch {i : Instr} {s : State} {c : RxChar} {code : Byte} {params : List Byte}
    {carryOut : List Byte → State → State} {new list : List WatchItem} (hi : exec i s = s.onRequest c code carryOut)
    (hreq : s.Requests c (code :: params))
    (hcarry : carryOut params (s.takeRequest code) = (s.takeRequest code).changeWatch new list) :
    ChangeJudged i s code new list := by
  unfold ChangeJudged
  intro u full filling
  have hd := hcarry.trans (s.changeWatch_taken code new list)
  have hrange := itemsOutOfRange_iff s.regions new
  have hfilling : s.anyFilling = true ↔ filling := s.anyFilling_iff
  have hfull : itemsExceed list = true ↔ full := itemsExceed_iff list
  refine ⟨fun hout => ?_, fun hnamed => ?_⟩
  · exact State.onRequest_replies hi hreq (hd.trans (if_pos (hrange.2 hout))) rfl rfl
  · have hin : ¬ itemsOutOfRange s.regions new = true := by
      rw [hrange]
      rintro ⟨it, hit, n, hn, hnot⟩
      exact hnot (hnamed it hit n hn)
    have hd := hd.trans (if_neg hin)
    refine ⟨fun hf => ?_, fun hf hx => ?_, fun hf hx => ?_⟩
    · exact State.onRequest_replies hi hreq (hd.trans (if_pos (hfilling.2 hf))) rfl rfl
    · refine State.onRequest_replies hi hreq (hd.trans ?_) rfl rfl
      rw [if_neg (mt hfilling.1 hf), if_pos (hfull.2 hx)]
    · refine State.onRequest_replies hi hreq (hd.trans ?_) rfl rfl
      rw [if_neg (mt hfilling.1 hf), if_neg (mt hfull.1 hx), Watch.summary_replace]

/-! ## The two requests -/

/-- WATCH APPEND carries the changed list of a request of some items. -/
theorem doWatchAppend_of_items {params : List Byte} {items : List WatchItem} (hp : parseItems params = some items)
    (hne : items ≠ []) (u : State) : doWatchAppend params u = u.changeWatch items (u.watch.items ++ items) := by
  cases items with
  | nil => exact absurd rfl hne
  | cons it rest => rw [doWatchAppend, hp]

/-- WATCH APPEND of no items, or of no layout, fails FORMAT (R99). -/
theorem doWatchAppend_of_no_layout {params : List Byte}
    (h : ∀ items, items ≠ [] → ItemsWellFormed items → params ≠ itemsLayout items) (u : State) :
    doWatchAppend params u = u.answer .format [] := by
  cases hp : parseItems params with
  | none => rw [doWatchAppend, hp]
  | some items =>
    obtain ⟨hwf, hlayout⟩ := (parseItems_some params items).1 hp
    cases items with
    | nil => rw [doWatchAppend, hp]
    | cons it rest => exact absurd hlayout (h _ (List.cons_ne_nil it rest) hwf)

/-- WATCH DEFINE of no layout fails FORMAT (R97). -/
theorem doWatchDefine_of_no_layout {params : List Byte}
    (h : ∀ items, ItemsWellFormed items → params ≠ itemsLayout items) (u : State) :
    doWatchDefine params u = u.answer .format [] := by
  have hp : parseItems params = none := Option.eq_none_iff_forall_ne_some.2 fun items hp => by
    obtain ⟨hwf, hlayout⟩ := (parseItems_some params items).1 hp
    exact h items hwf hlayout
  rw [doWatchDefine, hp]

/-- Settles O44: a payload is the layout of items or of none, and items are judged alike in both requests. -/
theorem watchChanged : Obligations.WatchChanged := by
  intro s c params judged
  refine ⟨?_, ?_⟩
  · rintro hreq u rfl
    refine ⟨fun items hwf hlayout => ?_, fun hnone => ?_⟩
    · have hp := (parseItems_some params items).2 ⟨hwf, hlayout⟩
      exact changeJudged_of_changeWatch rfl hreq (by rw [doWatchDefine, hp])
    · exact State.onRequest_replies rfl hreq (doWatchDefine_of_no_layout hnone _) rfl rfl
  · rintro hreq u rfl
    refine ⟨fun items hne hwf hlayout => ?_, fun hnone => ?_⟩
    · have hp := (parseItems_some params items).2 ⟨hwf, hlayout⟩
      have hcarry := doWatchAppend_of_items hp hne (s.takeRequest 0x31)
      rw [State.takeRequest_watch] at hcarry
      exact changeJudged_of_changeWatch rfl hreq hcarry
    · exact State.onRequest_replies rfl hreq (doWatchAppend_of_no_layout hnone _) rfl rfl

end Sys2Proof.Machine
end

section
/-! The Capture Unit at a marker (R104, R110 to R113, R119): the cases it judges and the snapshot a fill starts. -/

namespace Sys2Proof.Machine

/-! ## What a marker comes to (R110, R111) -/

theorem State.judgeMarker_of_off {s : State} (h : s.watch.mode = .off) (p : Option Micros) : s.judgeMarker p = s :=
  if_pos h

theorem State.freeBank_of_empty {s : State} (h : s.bankA.state = .empty ∨ s.bankB.state = .empty) :
    s.freeBank = some (if s.bankA.state = .empty then .a else .b) := by
  unfold State.freeBank
  by_cases ha : s.bankA.state = .empty
  · rw [if_pos ha, if_pos ha]
  · rw [if_neg ha, if_neg ha, if_pos (h.resolve_left ha)]

theorem State.freeBank_of_not_empty {s : State} (h : s.bankA.state ≠ .empty ∧ s.bankB.state ≠ .empty) :
    s.freeBank = none := by
  rw [State.freeBank, if_neg h.1, if_neg h.2]

/-- With no bank free or a fill in flight the marker is missed (R111). -/
theorem State.judgeMarker_of_missed {s : State} (hm : s.watch.mode ≠ .off)
    (h : s.fill ≠ none ∨ (s.bankA.state ≠ .empty ∧ s.bankB.state ≠ .empty)) (p : Option Micros) :
    s.judgeMarker p = { s with missed := countUp s.missed } := by
  rw [State.judgeMarker, if_neg hm]
  cases hf : s.fill with
  | some f => rfl
  | none => rw [State.freeBank_of_not_empty (h.resolve_left fun hne => hne hf)]

/-- With a bank free and no fill in flight a fill starts (R110). -/
theorem State.judgeMarker_of_start {s : State} (hm : s.watch.mode ≠ .off) (hf : s.fill = none)
    (h : s.bankA.state = .empty ∨ s.bankB.state = .empty) (p : Option Micros) :
    s.judgeMarker p = s.startFill (if s.bankA.state = .empty then .a else .b) p := by
  rw [State.judgeMarker, if_neg hm, hf, State.freeBank_of_empty h]

/-! ## The element states (R112) -/

theorem startState_of_absent {regions : List Region} {e : Element} (h : (lookup regions e.addr).isAbsent = true) :
    startState regions e = .captured := if_pos h

theorem startState_of_not_absent {regions : List Region} {e : Element} (h : ¬ (lookup regions e.addr).isAbsent = true) :
    startState regions e = .pending := if_neg h

/-! ## The snapshot of a new fill (R104, R113) -/

/-- The kind of an item (R91). -/
def WatchItem.kind : WatchItem → ItemKind
  | .bit _ _ => .bit
  | .word _ => .word
  | .pair _ => .pair
  | .block _ _ _ => .block
  | .grid _ _ _ _ _ => .grid

/-- The kind of an item, its elements and its bit number make its place in the layout (R104). -/
theorem WatchItem.layout_eq (it : WatchItem) : it.layout = ⟨it.kind, it.addresses.length, it.bitNumber⟩ := by
  rw [it.addresses_length]
  cases it <;> rfl

theorem Bank.empty_words_getElem? {n : Nat} (h : n < 256) : Bank.empty.words[n]? = some 0 :=
  List.getElem?_replicate_of_lt h

theorem Bank.empty_flags_getElem? {n : Nat} (h : n < 256) : Bank.empty.flags[n]? = some false :=
  List.getElem?_replicate_of_lt h

/-- No flag of an EMPTY bank is set, so a fill that completes at its start has no forced word (R112, R119). -/
theorem Bank.empty_no_forced (n : Nat) : (Bank.empty.flags.take n).any id = false :=
  List.any_eq_false.2 fun x hx => by
    rw [List.eq_of_mem_replicate (List.mem_of_mem_take hx)]; decide

/-- The bank as the start of a fill leaves it, in a state: FILLING, or READY with every element ABSENT. -/
def State.freshBank (s : State) (i : BankId) (p : Option Micros) (st : BankState) : Bank :=
  { state := st,
    header := ⟨i, s.watch.generation, s.sup.seq, s.time, p, s.missed, s.watch.elements.length, s.watch.items.length,
      false⟩,
    layout := s.watch.items.map WatchItem.layout, words := Bank.empty.words, flags := Bank.empty.flags,
    second := decide ((s.bank i.other).state ≠ .empty) }

theorem State.bank_congr {s t : State} (ha : t.bankA = s.bankA) (hb : t.bankB = s.bankB) (i : BankId) :
    t.bank i = s.bank i := by
  cases i
  · exact ha
  · exact hb

/-! ## The start of a fill (R110, R112, R119) -/

/-- The mode after a fill has started: a ONE-SHOT list is OFF (R101, R110). -/
def WatchMode.afterStart (m : WatchMode) : WatchMode := if m = .oneShot then .off else m

/-- A fill started on a bank, before it is settled. -/
def State.begun (s : State) (i : BankId) (p : Option Micros) : State :=
  { s.setBank i (s.freshBank i p .filling) with
    fill := some ⟨i, s.forces, s.watch.elements.map (startState s.regions)⟩, missed := 0,
    watch := { s.watch with mode := s.watch.mode.afterStart },
    arb := { s.arb with waitF := (s.watch.elements.map (startState s.regions)).any (· = .pending) } }

theorem State.startFill_eq (s : State) (i : BankId) (p : Option Micros) :
    s.startFill i p = (s.begun i p).settleFill := by
  cases i <;> rfl

/-- With an element that is not ABSENT the fill is in flight and F waits (R112, R113). -/
theorem State.startFill_of_not_absent {s : State} (h : ∃ e ∈ s.watch.elements, ¬ (lookup s.regions e.addr).isAbsent = true)
    (i : BankId) (p : Option Micros) : s.startFill i p =
      { s.setBank i (s.freshBank i p .filling) with
        fill := some ⟨i, s.forces, s.watch.elements.map (startState s.regions)⟩, missed := 0,
        arb := { s.arb with waitF := true }, watch := { s.watch with mode := s.watch.mode.afterStart } } := by
  obtain ⟨e, he, hne⟩ := h
  have hpending : ElemState.pending ∈ s.watch.elements.map (startState s.regions) :=
    List.mem_map.2 ⟨e, he, startState_of_not_absent hne⟩
  have hclaim : (s.watch.elements.map (startState s.regions)).any (· = .pending) = true :=
    List.any_eq_true.2 ⟨_, hpending, rfl⟩
  have hopen : ¬ (s.watch.elements.map (startState s.regions)).all (· = .captured) = true := fun hall => by
    cases of_decide_eq_true (List.all_eq_true.1 hall _ hpending)
  rw [State.startFill_eq, State.settleFill, State.begun]
  dsimp only
  rw [if_neg hopen, hclaim]

/-- With every element ABSENT the fill completes at once and makes no claim (R112, R119). -/
theorem State.startFill_of_absent {s : State} (h : ∀ e ∈ s.watch.elements, (lookup s.regions e.addr).isAbsent = true)
    (i : BankId) (p : Option Micros) : s.startFill i p =
      { s.setBank i (s.freshBank i p .ready) with
        fill := none, missed := 0, arb := { s.arb with waitF := false },
        watch := { s.watch with mode := s.watch.mode.afterStart }, latched := { s.latched with snapReady := true } } := by
  have hall : (s.watch.elements.map (startState s.regions)).all (· = .captured) = true :=
    List.all_eq_true.2 fun st hst => by
      obtain ⟨e, he, rfl⟩ := List.mem_map.1 hst
      exact decide_eq_true (startState_of_absent (h e he))
  rw [State.startFill_eq]
  refine (if_pos hall).trans ?_
  cases i
  all_goals
    simp only [completeFill, State.begun, State.bank, State.setBank, State.freshBank, Bank.empty_no_forced]
    rfl

/-- Settles O7: by the mode, then by whether a fill can start, then by whether some element is not ABSENT. -/
theorem markerOnCaptureUnit : Obligations.MarkerOnCaptureUnit := by
  intro s p
  refine ⟨fun hoff => State.judgeMarker_of_off hoff p, fun hm hmissed => State.judgeMarker_of_missed hm hmissed p, ?_⟩
  rintro hm hf hfree i hi mode rfl absent
  have hstart : s.judgeMarker p = s.startFill i p := hi ▸ State.judgeMarker_of_start hm hf hfree p
  have hlength : (s.watch.items.map WatchItem.layout).length = s.watch.items.length := List.length_map _
  have hlayout (n : Nat) (it : WatchItem) (hn : s.watch.items[n]? = some it) :
      (s.watch.items.map WatchItem.layout)[n]? = some ⟨it.kind, it.addresses.length, it.bitNumber⟩ := by
    rw [List.getElem?_map, hn, ← it.layout_eq]; rfl
  have hblank (n : Nat) (e : Element) (_ : s.watch.elements[n]? = some e) (_ : absent e) (h : n < 256) :
      Bank.empty.words[n]? = some 0 ∧ Bank.empty.flags[n]? = some false :=
    ⟨Bank.empty_words_getElem? h, Bank.empty_flags_getElem? h⟩
  by_cases hall : ∀ e ∈ s.watch.elements, absent e
  · refine ⟨_, s.freshBank i p .ready, hstart.trans (State.startFill_of_absent hall i p),
      (State.bank_congr rfl rfl i).trans (s.bank_setBank i _), rfl, hlength, hlayout, rfl, hblank, ?_, fun _ => ⟨rfl, rfl⟩⟩
    rintro ⟨e, he, hne⟩
    exact absurd (hall e he) hne
  · have hsome : ∃ e ∈ s.watch.elements, ¬ absent e := by simpa only [not_forall, exists_prop] using hall
    refine ⟨_, s.freshBank i p .filling, hstart.trans (State.startFill_of_not_absent hsome i p),
      (State.bank_congr rfl rfl i).trans (s.bank_setBank i _), rfl, hlength, hlayout, rfl, hblank, fun _ => ⟨rfl, ?_⟩,
      fun h => absurd h hall⟩
    refine ⟨s.watch.elements.map (startState s.regions), List.length_map _, fun n e he => ?_, rfl⟩
    rw [List.getElem?_map, he]
    exact ⟨fun h => congrArg some (startState_of_absent h), fun h => congrArg some (startState_of_not_absent h)⟩

end Sys2Proof.Machine
end

section
/-! The capture of a word read at memory (R114, R116, R119): the elements that take it, and what is left of the fill. -/

namespace Sys2Proof.Machine

/-! ## The places of a capture (R116) -/

section
variable {α : Type} {a : Addr} {value : Element → α}

/-- The place of an element PENDING at the address takes the element's value. -/
theorem capturePlaces_getElem?_of_hit {es : List Element} {ss : List ElemState} {n : Nat} {e : Element}
    (he : es[n]? = some e) (hs : ss[n]? = some .pending) (ha : e.addr = a) (xs : List α) :
    (capturePlaces a value es ss xs)[n]? = xs[n]?.map (fun _ => value e) := by
  induction es generalizing ss xs n with
  | nil => cases he
  | cons e' es ih =>
    cases ss with
    | nil => cases hs
    | cons st ss =>
      cases xs with
      | nil => rfl
      | cons x xs =>
        cases n with
        | zero =>
          cases he
          cases hs
          simp [capturePlaces, ha]
        | succ n => exact ih he hs xs

/-- Every other place stays as it stands. -/
theorem capturePlaces_getElem?_of_miss {es : List Element} {ss : List ElemState} {n : Nat} (h : ¬ Owed es ss n a)
    (xs : List α) : (capturePlaces a value es ss xs)[n]? = xs[n]? := by
  induction es generalizing ss xs n with
  | nil => rfl
  | cons e es ih =>
    cases ss with
    | nil => rfl
    | cons st ss =>
      cases xs with
      | nil => rfl
      | cons x xs =>
        cases n with
        | zero =>
          rw [owed_zero] at h
          simp [capturePlaces, h]
        | succ n =>
          rw [owed_succ] at h
          exact ih h xs

end

/-- After a capture an element is PENDING exactly where one was, at another address. -/
theorem pending_mem_capturePlaces_iff {a : Addr} {es : List Element} {ss : List ElemState} (hlen : ss.length = es.length) :
    ElemState.pending ∈ capturePlaces a (fun _ => ElemState.captured) es ss ss
      ↔ ∃ (n : Nat) (e : Element), es[n]? = some e ∧ ss[n]? = some .pending ∧ e.addr ≠ a := by
  rw [List.mem_iff_getElem?]
  constructor
  · rintro ⟨n, hn⟩
    by_cases hhit : Owed es ss n a
    · obtain ⟨hs, e, he, ha⟩ := hhit
      rw [capturePlaces_getElem?_of_hit he hs ha, hs] at hn
      cases hn
    · rw [capturePlaces_getElem?_of_miss hhit] at hn
      have hin : n < es.length := hlen ▸ (List.getElem?_eq_some_iff.1 hn).1
      exact ⟨n, es[n], List.getElem?_eq_getElem hin, hn, fun ha => hhit ⟨hn, _, List.getElem?_eq_getElem hin, ha⟩⟩
  · rintro ⟨n, e, he, hs, ha⟩
    refine ⟨n, (capturePlaces_getElem?_of_miss ?_ _).trans hs⟩
    rintro ⟨-, e', he', ha'⟩
    cases he.symm.trans he'
    exact ha ha'

/-! ## The word and the flag an element takes (R42, R116) -/

/-- The overlay of an entry holds the forced bits at their values. -/
theorem getLsbD_overlayBy (forces : List ForceEntry) (a : Addr) (w : Word) {i : Nat} (hi : i < 16) :
    (overlayBy (entryFor forces a) w).getLsbD i = (forcedAt (entryFor forces a) i).getD (w.getLsbD i) :=
  overlaid_overlay forces (.region 0 .work false) a w i hi

/-- A BIT item is forced in its bit, every other item in any bit of the word. -/
theorem forcedFlag_eq (items : List WatchItem) (entry : Option ForceEntry) (e : Element) :
    forcedFlag items entry e = match items[e.item]? with
      | some (.bit _ k) => (forcedAt entry k.toNat).isSome
      | _ => entry.isSome := by
  cases entry with
  | none => cases items[e.item]? with
    | none => rfl
    | some it => cases it <;> rfl
  | some x => cases hit : items[e.item]? with
    | none => simp [forcedFlag, hit]
    | some it => cases it with
      | bit b k => cases hs : x.set.getLsbD k.toNat <;> cases hc : x.clr.getLsbD k.toNat <;>
          simp [forcedFlag, forcedAt, hit, hs, hc]
      | _ => simp [forcedFlag, hit]

/-! ## The bank of a capture -/

/-- The fill as a capture leaves it, before it is settled. -/
def Fill.capturedAt (f : Fill) (a : Addr) (es : List Element) : Fill :=
  { f with states := capturePlaces a (fun _ => ElemState.captured) es f.states f.states }

theorem captureInto_bank (s : State) (f : Fill) (a : Addr) (w : Word) :
    (captureInto s f a w).bank f.bank = { s.bank f.bank with
      words := capturePlaces a (fun _ => overlayBy (entryFor f.frozen a) w) s.watch.elements f.states (s.bank f.bank).words,
      flags := capturePlaces a (forcedFlag s.watch.items (entryFor f.frozen a)) s.watch.elements f.states
        (s.bank f.bank).flags } :=
  (State.bank_congr rfl rfl f.bank).trans (s.bank_setBank f.bank _)

/-- A bank whose fill completes (R119). -/
def Bank.completed (b : Bank) : Bank :=
  { b with
    state := .ready, header := { b.header with forcedPresent := (b.flags.take b.header.elementCount).any id } }

theorem completeFill_eq (s : State) (f : Fill) : completeFill s f =
    { s.setBank f.bank (s.bank f.bank).completed with
      fill := none, arb := { s.arb with waitF := false }, latched := { s.latched with snapReady := true } } := by
  obtain ⟨bank, _, _⟩ := f
  cases bank <;> rfl

theorem completeFill_bank (s : State) (f : Fill) : (completeFill s f).bank f.bank = (s.bank f.bank).completed := by
  rw [completeFill_eq]
  exact (State.bank_congr rfl rfl f.bank).trans (s.bank_setBank f.bank _)

/-- A fill that completes with a capture (R116, R119). -/
theorem completeFill_captureInto (s : State) (f : Fill) (a : Addr) (w : Word) (es : List Element) :
    completeFill (captureInto s f a w) (f.capturedAt a es) =
      { s.setBank f.bank ((captureInto s f a w).bank f.bank).completed with
        fill := none, arb := { s.arb with waitF := false }, latched := { s.latched with snapReady := true } } := by
  rw [completeFill_eq]
  obtain ⟨bank, _, _⟩ := f
  cases bank <;> rfl

/-- A fill with a PENDING element goes on (R119). -/
theorem State.settleFill_of_pending {s : State} {f : Fill} (hf : s.fill = some f) (h : ElemState.pending ∈ f.states) :
    s.settleFill = s := by
  have hopen : ¬ f.states.all (fun st => st = ElemState.captured) = true := fun hall => by
    cases of_decide_eq_true (List.all_eq_true.1 hall _ h)
  rw [State.settleFill, hf]
  exact if_neg hopen

/-- A fill without one completes (R119). -/
theorem State.settleFill_of_captured {s : State} {f : Fill} (hf : s.fill = some f) (h : ElemState.pending ∉ f.states) :
    s.settleFill = completeFill s f := by
  have hall : f.states.all (fun st => st = ElemState.captured) = true := List.all_eq_true.2 fun st hst => by
    cases st with
    | pending => exact absurd hst h
    | captured => rfl
  rw [State.settleFill, hf]
  exact if_pos hall

section
variable {s : State} {f : Fill} (hf : s.fill = some f) (a : Addr) (w : Word)
include hf

/-- While an element stays PENDING the fill is in flight. -/
theorem State.capture_of_pending (h : ElemState.pending ∈ (f.capturedAt a s.watch.elements).states) :
    s.capture a w = captureInto s f a w :=
  (State.capture_of_some hf a w).trans (State.settleFill_of_pending (captureInto_fill s f a w) h)

/-- With none PENDING the fill completes. -/
theorem State.capture_of_captured (h : ElemState.pending ∉ (f.capturedAt a s.watch.elements).states) :
    s.capture a w = completeFill (captureInto s f a w) (f.capturedAt a s.watch.elements) :=
  (State.capture_of_some hf a w).trans (State.settleFill_of_captured (captureInto_fill s f a w) h)

/-- Completing a fill leaves what its bank has captured. -/
theorem State.capture_contents :
    ((s.capture a w).bank f.bank).words = ((captureInto s f a w).bank f.bank).words
      ∧ ((s.capture a w).bank f.bank).flags = ((captureInto s f a w).bank f.bank).flags := by
  by_cases h : ElemState.pending ∈ (f.capturedAt a s.watch.elements).states
  · rw [State.capture_of_pending hf a w h]
    exact ⟨rfl, rfl⟩
  · have hbank : (s.capture a w).bank f.bank = ((captureInto s f a w).bank f.bank).completed :=
      State.capture_of_captured hf a w h ▸ completeFill_bank _ _
    rw [hbank]
    exact ⟨rfl, rfl⟩

theorem State.capture_words : ((s.capture a w).bank f.bank).words =
    capturePlaces a (fun _ => overlayBy (entryFor f.frozen a) w) s.watch.elements f.states (s.bank f.bank).words := by
  rw [(State.capture_contents hf a w).1, captureInto_bank]

theorem State.capture_flags : ((s.capture a w).bank f.bank).flags =
    capturePlaces a (forcedFlag s.watch.items (entryFor f.frozen a)) s.watch.elements f.states (s.bank f.bank).flags := by
  rw [(State.capture_contents hf a w).2, captureInto_bank]

end

/-- Settles O8: place by place, and by whether an element at another address is PENDING. -/
theorem wordCaptured : Obligations.WordCaptured := by
  intro s f a w hf hlen hmax hwords hflags hcount t hit left
  have hleft : ElemState.pending ∈ (f.capturedAt a s.watch.elements).states ↔ left := pending_mem_capturePlaces_iff hlen
  have hmiss {n : Nat} (h : ∀ e, s.watch.elements[n]? = some e → ¬ hit n e) : ¬ Owed s.watch.elements f.states n a :=
    fun ⟨hs, e, he, ha⟩ => h e he ⟨hs, ha⟩
  refine ⟨fun n e he ⟨hs, ha⟩ => ?_, fun n h => ?_, fun h => ?_, fun h => ?_⟩
  · have hn : n < 256 := (List.getElem?_eq_some_iff.1 he).1.trans_le hmax
    refine ⟨⟨_, ?_, fun i hi => getLsbD_overlayBy f.frozen a w hi⟩, ?_⟩
    · rw [State.capture_words hf, capturePlaces_getElem?_of_hit he hs ha, List.getElem?_eq_getElem (hwords ▸ hn)]
      rfl
    · rw [State.capture_flags hf, capturePlaces_getElem?_of_hit he hs ha, List.getElem?_eq_getElem (hflags ▸ hn)]
      exact congrArg some (forcedFlag_eq _ _ e)
  · rw [State.capture_words hf, State.capture_flags hf]
    exact ⟨capturePlaces_getElem?_of_miss (hmiss h) _, capturePlaces_getElem?_of_miss (hmiss h) _⟩
  · have ht : t = captureInto s f a w := State.capture_of_pending hf a w (hleft.2 h)
    rw [ht]
    refine ⟨f.capturedAt a s.watch.elements, rfl, rfl, rfl, capturePlaces_length ..,
      fun n e he => ⟨fun ⟨hs, ha⟩ => ?_, fun hno => ?_⟩, ?_, ?_, ?_⟩
    · exact (capturePlaces_getElem?_of_hit he hs ha _).trans (by rw [hs]; rfl)
    · exact capturePlaces_getElem?_of_miss (hmiss fun e' he' => by cases he.symm.trans he'; exact hno) _
    · rw [captureInto_bank]; rfl
    · rw [captureInto_bank]
    · rw [captureInto_bank]
  · have ht : t = completeFill (captureInto s f a w) (f.capturedAt a s.watch.elements) :=
      State.capture_of_captured hf a w (mt hleft.1 h)
    have hbank : t.bank f.bank = ((captureInto s f a w).bank f.bank).completed := ht ▸ completeFill_bank _ _
    have hheader : ((captureInto s f a w).bank f.bank).header = (s.bank f.bank).header := by rw [captureInto_bank]
    refine ⟨hbank ▸ rfl, ?_, ?_⟩
    · rw [hbank, Bank.completed, hheader, hcount]
    · rw [hbank, ht, completeFill_captureInto]

/-! ## A fill read (R114, R18) -/

/-- F has an address to read exactly while an element of the fill in flight is PENDING (R114). -/
theorem State.lowestPending_isSome_iff (s : State) : s.lowestPending.isSome = true ↔
    ∃ (f : Fill) (n : Nat) (e : Element), s.fill = some f ∧ f.states[n]? = some .pending
      ∧ s.watch.elements[n]? = some e := by
  rw [Option.isSome_iff_exists]
  constructor
  · rintro ⟨a, h⟩
    obtain ⟨f, n, hf, ⟨hs, e, he, -⟩, -⟩ := (s.lowestPending_iff a).1 h
    exact ⟨f, n, e, hf, hs, he⟩
  · rintro ⟨f, n, e, hf, hs, he⟩
    classical
    have hsome : ∃ n b, Owed s.watch.elements f.states n b := ⟨n, e.addr, hs, e, he, rfl⟩
    obtain ⟨b, hb⟩ := Nat.find_spec hsome
    exact ⟨b, (s.lowestPending_iff b).2 ⟨f, _, hf, hb, fun m hm c hc => Nat.find_min hsome hm ⟨c, hc⟩⟩⟩

theorem exec_fillReadReturn {s : State} {a : Addr} (hg : s.arb.grant = some ⟨.f, .read⟩) (hm : s.mport = .reading a) :
    exec .fillReadReturn s =
      let t := s.capture a (s.mem.readWord a)
      .next { t with
        arb := { t.arb with grant := none, waitF := t.lowestPending.isSome }, mport := .idle }.decideGrant := by
  show execFillReadReturn s = _
  simp only [execFillReadReturn, hg, hm]
  rfl

/-- Settles O18: the capture, the end of the grant, and the claim that follows what is left PENDING. -/
theorem fillReadReturns : Obligations.FillReadReturns := by
  rintro s a hg hm t rfl
  exact ⟨exec_fillReadReturn hg hm, State.lowestPending_isSome_iff _, fun hf => State.capture_of_none hf a _⟩

end Sys2Proof.Machine
end

section
/-! The Snapshot Store in order (R108 to R112, R119 to R123): what State.fillOk and State.banksOk say, and the changes of a
bank that keep it. -/

namespace Sys2Proof.Machine

/-! ## The Snapshot Store -/

/-- The part of the state that State.fillOk and State.banksOk speak of: the fill and its elements, the banks, the bank under
transfer and the missed count. -/
structure Store where
  fill : Option Fill
  elements : List Element
  bankA : Bank
  bankB : Bank
  transfer : Option BankId
  missed : Nat

def State.store (s : State) : Store := ⟨s.fill, s.watch.elements, s.bankA, s.bankB, s.exch.bank, s.missed⟩

namespace Store

/-- A bank of the store. -/
def bank (x : Store) : BankId → Bank
  | .a => x.bankA
  | .b => x.bankB

/-- Replaces a bank of the store. -/
def setBank (x : Store) (i : BankId) (b : Bank) : Store :=
  match i with
  | .a => { x with bankA := b }
  | .b => { x with bankB := b }

@[simp] theorem bank_setBank (x : Store) (i : BankId) (b : Bank) : (x.setBank i b).bank i = b := by cases i <;> rfl

@[simp] theorem bank_setBank_other (x : Store) (i : BankId) (b : Bank) : (x.setBank i b).bank i.other = x.bank i.other := by
  cases i <;> rfl

@[simp] theorem setBank_fill (x : Store) (i : BankId) (b : Bank) : (x.setBank i b).fill = x.fill := by cases i <;> rfl

@[simp] theorem setBank_elements (x : Store) (i : BankId) (b : Bank) : (x.setBank i b).elements = x.elements := by
  cases i <;> rfl

@[simp] theorem setBank_missed (x : Store) (i : BankId) (b : Bank) : (x.setBank i b).missed = x.missed := by cases i <;> rfl

/-- Stores with the same banks agree on each. -/
theorem bank_congr {x y : Store} (ha : y.bankA = x.bankA) (hb : y.bankB = x.bankB) (i : BankId) : y.bank i = x.bank i := by
  cases i
  · exact ha
  · exact hb

end Store

@[simp] theorem State.store_bank (s : State) (i : BankId) : s.store.bank i = s.bank i := by cases i <;> rfl

/-- What holds of a bank and of the other holds of both. -/
theorem BankId.forall_of_other {P : BankId → Prop} (i : BankId) (h : P i) (ho : P i.other) (j : BankId) : P j := by
  cases i <;> cases j
  · exact h
  · exact ho
  · exact ho
  · exact h

theorem BankId.other_ne (i : BankId) : i.other ≠ i := by cases i <;> decide

/-! ## What holds of the store -/

namespace Store

/-- The fill order (R109): a bank is second only beside one that is not EMPTY and first, and of two that are not EMPTY one is
second. -/
structure InOrder (x : Store) : Prop where
  second : ∀ i, (x.bank i).second = true → (x.bank i.other).state ≠ .empty ∧ (x.bank i.other).second = false
  first : ∀ i, (x.bank i).state ≠ .empty → (x.bank i.other).state ≠ .empty → (x.bank i).second = false →
    (x.bank i.other).second = true

/-- What holds of the store but for the PENDING element of a fill in flight, which the settling of a fill gives (R119). -/
structure Stands (x : Store) : Prop where
  banks : ∀ i, (x.bank i).ok = true
  host : ∀ i, (x.bank i).state.withHost = true → (x.bank i.other).state.withHost = false
  transfer : ∀ i, (x.bank i).state = .sending ↔ x.transfer = some i
  order : x.InOrder
  missed : x.missed ≤ 255
  filling : ∀ i, (x.bank i).state = .filling ↔ x.fill.map Fill.bank = some i
  sized : ∀ f, x.fill = some f →
    f.states.length = x.elements.length ∧ (x.bank f.bank).header.elementCount = f.states.length

/-- What holds of the store between two commands. -/
structure Ok (x : Store) : Prop where
  stands : x.Stands
  owed : ∀ f, x.fill = some f → ElemState.pending ∈ f.states

end Store

/-- What holds of both banks, bank by bank. -/
theorem BankId.forall_iff (P : BankId → Prop) : (∀ i, P i) ↔ P .a ∧ P .b :=
  ⟨fun h => ⟨h .a, h .b⟩, fun h i => by cases i; exacts [h.1, h.2]⟩

theorem State.fillOk_iff (s : State) : s.fillOk = true ↔
    (∀ i, (s.bank i).state = .filling ↔ s.fill.map Fill.bank = some i)
      ∧ (∀ f, s.fill = some f → f.states.length = s.watch.elements.length
          ∧ (s.bank f.bank).header.elementCount = f.states.length)
      ∧ ∀ f, s.fill = some f → ElemState.pending ∈ f.states := by
  rw [BankId.forall_iff, State.fillOk]
  cases s.fill with
  | none => simp [State.bank]
  | some f =>
    obtain ⟨i, _, _⟩ := f
    simp only [Bool.and_eq_true, decide_eq_true_eq, List.any_eq_true, exists_eq_right, Option.map_some, Option.some.injEq,
      forall_eq']
    cases i
    · simp [State.bank, BankId.other]; tauto
    · simp [State.bank, BankId.other]; tauto

/-- Not both, said of each. -/
theorem hostFlags_iff (a b : Bool) : (!(a && b)) = true ↔ (a = true → b = false) ∧ (b = true → a = false) := by
  decide +revert

/-- The fill order of State.banksOk, said of each bank. -/
theorem fillOrderFlags_iff (emptyA emptyB secondA secondB : Bool) :
    ((!secondA || (!emptyB && !secondB)) = true ∧ (!secondB || (!emptyA && !secondA)) = true
        ∧ (emptyA || emptyB || (secondA ^^ secondB)) = true)
      ↔ ((secondA = true → emptyB = false ∧ secondB = false) ∧ (secondB = true → emptyA = false ∧ secondA = false))
        ∧ (emptyA = false → emptyB = false → secondA = false → secondB = true)
        ∧ (emptyB = false → emptyA = false → secondB = false → secondA = true) := by
  decide +revert

theorem State.banksOk_iff (s : State) : s.banksOk = true ↔
    (∀ i, (s.bank i).ok = true)
      ∧ (∀ i, (s.bank i).state.withHost = true → (s.bank i.other).state.withHost = false)
      ∧ (∀ i, (s.bank i).state = .sending ↔ s.exch.bank = some i)
      ∧ (∀ i, (s.bank i).second = true → (s.bank i.other).state ≠ .empty ∧ (s.bank i.other).second = false)
      ∧ (∀ i, (s.bank i).state ≠ .empty → (s.bank i.other).state ≠ .empty → (s.bank i).second = false →
          (s.bank i.other).second = true)
      ∧ s.missed ≤ 255 := by
  have horder := fillOrderFlags_iff (s.bankA.state = .empty) (s.bankB.state = .empty) s.bankA.second s.bankB.second
  simp only [decide_eq_false_iff_not] at horder
  simp only [BankId.forall_iff, State.bank, BankId.other, State.banksOk, Bool.and_eq_true, decide_eq_true_eq, eq_iff_iff,
    hostFlags_iff, ne_eq, decide_not]
  constructor
  · rintro ⟨⟨⟨⟨⟨⟨⟨hok, hhost⟩, hsendA⟩, hsendB⟩, hsecondA⟩, hsecondB⟩, hone⟩, hmissed⟩
    obtain ⟨hsecond, hfirst⟩ := horder.1 ⟨hsecondA, hsecondB, hone⟩
    exact ⟨hok, hhost, ⟨hsendA, hsendB⟩, hsecond, hfirst, hmissed⟩
  · rintro ⟨hok, hhost, ⟨hsendA, hsendB⟩, hsecond, hfirst, hmissed⟩
    obtain ⟨hsecondA, hsecondB, hone⟩ := horder.2 ⟨hsecond, hfirst⟩
    exact ⟨⟨⟨⟨⟨⟨⟨hok, hhost⟩, hsendA⟩, hsendB⟩, hsecondA⟩, hsecondB⟩, hone⟩, hmissed⟩

/-- The relations of the fill and of the banks are those of the store. -/
theorem State.storeOk_iff (s : State) : s.store.Ok ↔ s.fillOk = true ∧ s.banksOk = true := by
  rw [State.fillOk_iff, State.banksOk_iff]
  simp only [← State.store_bank]
  constructor
  · rintro ⟨⟨hbanks, hhost, htransfer, ⟨hsecond, hfirst⟩, hmissed, hfilling, hsized⟩, howed⟩
    exact ⟨⟨hfilling, hsized, howed⟩, hbanks, hhost, htransfer, hsecond, hfirst, hmissed⟩
  · rintro ⟨⟨hfilling, hsized, howed⟩, hbanks, hhost, htransfer, hsecond, hfirst, hmissed⟩
    exact ⟨⟨hbanks, hhost, htransfer, ⟨hsecond, hfirst⟩, hmissed, hfilling, hsized⟩, howed⟩

/-! ## Changes of one bank -/

namespace Store

/-- The fill order stays where the same banks are EMPTY and the same are second. -/
theorem InOrder.congr {x y : Store} (h : x.InOrder) (hempty : ∀ i, (y.bank i).state = .empty ↔ (x.bank i).state = .empty)
    (hsecond : ∀ i, (y.bank i).second = (x.bank i).second) : y.InOrder where
  second i hi := by
    rw [ne_eq, hempty, hsecond]
    exact h.second i (hsecond i ▸ hi)
  first i hi ho hs := by
    rw [hsecond]
    exact h.first i (mt (hempty i).2 hi) (mt (hempty i.other).2 ho) (hsecond i ▸ hs)

/-- A bank that is not EMPTY takes other contents or goes to another state, and the fill and the bank under transfer go with
it. -/
theorem Stands.replace {x : Store} (h : x.Stands) {i : BankId} {b : Bank} (hne : (x.bank i).state ≠ .empty)
    (hok : b.ok = true) (hstate : b.state ≠ .empty) (hsecond : b.second = (x.bank i).second)
    (hhost : b.state.withHost = true → (x.bank i.other).state.withHost = false) {transfer : Option BankId}
    (hsend : b.state = .sending ↔ transfer = some i)
    (hsendOther : (x.bank i.other).state = .sending ↔ transfer = some i.other) {fill : Option Fill}
    (hfill : b.state = .filling ↔ fill.map Fill.bank = some i)
    (hfillOther : (x.bank i.other).state = .filling ↔ fill.map Fill.bank = some i.other)
    (hsized : ∀ f, fill = some f →
      f.states.length = x.elements.length ∧ ((x.setBank i b).bank f.bank).header.elementCount = f.states.length) :
    ({ x.setBank i b with fill := fill, transfer := transfer } : Store).Stands := by
  have hbank (j : BankId) : ({ x.setBank i b with fill := fill, transfer := transfer } : Store).bank j
      = (x.setBank i b).bank j := bank_congr rfl rfl j
  refine ⟨?_, ?_, ?_, h.order.congr ?_ ?_, ?_, ?_, fun f hf => ?_⟩ <;> try simp only [hbank]
  · refine BankId.forall_of_other i ?_ ?_ <;> simp only [bank_setBank, bank_setBank_other]
    · exact hok
    · exact h.banks i.other
  · refine BankId.forall_of_other i ?_ ?_ <;> simp only [bank_setBank, bank_setBank_other, BankId.other_other]
    · exact hhost
    · exact fun ho => Bool.eq_false_iff.2 fun hb => Bool.eq_false_iff.1 (hhost hb) ho
  · refine BankId.forall_of_other i ?_ ?_ <;> simp only [bank_setBank, bank_setBank_other]
    · exact hsend
    · exact hsendOther
  · refine BankId.forall_of_other i ?_ ?_ <;> simp only [bank_setBank, bank_setBank_other]
    exact iff_of_false hstate hne
  · refine BankId.forall_of_other i ?_ ?_ <;> simp only [bank_setBank, bank_setBank_other]
    exact hsecond
  · exact (x.setBank_missed i b).trans_le h.missed
  · refine BankId.forall_of_other i ?_ ?_ <;> simp only [bank_setBank, bank_setBank_other]
    · exact hfill
    · exact hfillOther
  · obtain ⟨hlen, hcount⟩ := hsized f hf
    exact ⟨hlen.trans (congrArg List.length (x.setBank_elements i b)).symm, hcount⟩

/-- A bank with its host's part of the transfer moves between READY, SENDING and SENT. -/
theorem Stands.move {x : Store} (h : x.Stands) {i : BankId} {dest : BankState} (hne : (x.bank i).state ≠ .empty)
    (hnf : (x.bank i).state ≠ .filling) (hempty : dest ≠ .empty) (hfilling : dest ≠ .filling)
    (hhost : dest.withHost = true → (x.bank i.other).state.withHost = false) {transfer : Option BankId}
    (hsend : dest = .sending ↔ transfer = some i) (hsendOther : (x.bank i.other).state = .sending ↔ transfer = some i.other) :
    ({ x.setBank i { x.bank i with state := dest } with transfer := transfer } : Store).Stands := by
  have hfill : (x.setBank i { x.bank i with state := dest }).fill = x.fill := x.setBank_fill i _
  refine h.replace (b := { x.bank i with state := dest }) (fill := (x.setBank i _).fill) hne ?_ hempty rfl hhost hsend
    hsendOther ?_ ?_ ?_
  · exact Bank.ok_of_same (h.banks i) rfl rfl rfl rfl rfl hempty
  · rw [hfill]
    exact iff_of_false hfilling (mt (h.filling i).2 hnf)
  · rw [hfill]
    exact h.filling i.other
  · rw [hfill]
    intro f hf
    obtain ⟨hlen, hcount⟩ := h.sized f hf
    refine ⟨hlen, Eq.trans ?_ hcount⟩
    cases i <;> cases f.bank <;> rfl

/-! ## The end of a transfer (R123) -/

/-- No bank is under transfer any longer; the SENDING one that was goes to a state. -/
def release (x : Store) (dest : BankState) : Store :=
  match x.transfer with
  | none => x
  | some i =>
    { (if (x.bank i).state = .sending then x.setBank i { x.bank i with state := dest } else x) with transfer := none }

/-- The transfer in progress, if there is one, has ended or goes on. -/
def EndsTransfer (x y : Store) : Prop := y = x ∨ ∃ dest, (dest = .ready ∨ dest = .sent) ∧ y = x.release dest

theorem release_fields (x : Store) (dest : BankState) : (x.release dest).fill = x.fill
    ∧ (x.release dest).elements = x.elements ∧ ∀ i, ((x.release dest).bank i).words = (x.bank i).words := by
  unfold release
  cases x.transfer with
  | none => exact ⟨rfl, rfl, fun _ => rfl⟩
  | some j =>
    dsimp only
    split
    · refine ⟨x.setBank_fill j _, x.setBank_elements j _, fun i => ?_⟩
      cases i <;> cases j <;> rfl
    · exact ⟨rfl, rfl, fun i => congrArg Bank.words (bank_congr rfl rfl i)⟩

theorem EndsTransfer.fields {x y : Store} (h : x.EndsTransfer y) : y.fill = x.fill ∧ y.elements = x.elements
    ∧ ∀ i, (y.bank i).words = (x.bank i).words := by
  rcases h with rfl | ⟨dest, -, rfl⟩
  · exact ⟨rfl, rfl, fun _ => rfl⟩
  · exact x.release_fields dest

/-- The bank that was under transfer is READY or SENT. -/
theorem Stands.release {x : Store} (h : x.Stands) {dest : BankState} (hd : dest = .ready ∨ dest = .sent) :
    (x.release dest).Stands := by
  unfold Store.release
  cases ht : x.transfer with
  | none => exact h
  | some i =>
    have hsending : (x.bank i).state = .sending := (h.transfer i).2 ht
    have hotherSends : (x.bank i.other).state ≠ .sending := fun ho => by
      have hother := (h.transfer i.other).1 ho
      rw [ht] at hother
      exact i.other_ne (Option.some.inj hother).symm
    dsimp only
    rw [if_pos hsending]
    refine h.move (by rw [hsending]; decide) (by rw [hsending]; decide) ?_ ?_
      (fun _ => h.host i (by rw [hsending]; rfl)) (iff_of_false ?_ nofun) (iff_of_false hotherSends nofun)
    all_goals rcases hd with rfl | rfl <;> decide

theorem Stands.endsTransfer {x y : Store} (h : x.Stands) (he : x.EndsTransfer y) : y.Stands := by
  rcases he with rfl | ⟨dest, hd, rfl⟩
  · exact h
  · exact h.release hd

theorem Ok.endsTransfer {x y : Store} (h : x.Ok) (he : x.EndsTransfer y) : y.Ok :=
  ⟨h.stands.endsTransfer he, fun f hf => h.owed f (he.fields.1 ▸ hf)⟩

end Store

end Sys2Proof.Machine
end

section
/-! The Snapshot Store as the Capture Unit and the snapshot requests change it: it stays in order at a capture, at the end and
the start of a fill (R110 to R113, R116, R119), and when a bank is sent or freed (R122, R125). -/

namespace Sys2Proof.Machine

/-! ## The end of a fill (R119) -/

section
variable {s : State} (h : s.store.Stands) {f : Fill} (hf : s.fill = some f)
include h hf

theorem State.fillBank_filling : (s.bank f.bank).state = .filling := by
  rw [← State.store_bank]
  exact (h.filling f.bank).2 (congrArg (Option.map Fill.bank) hf)

/-- A bank whose fill is in flight is not sent to the host, and no transfer is under way from it. -/
theorem State.fillBank_not_transfer : s.store.transfer ≠ some f.bank := fun ht => by
  have hsending := (h.transfer f.bank).2 ht
  rw [State.store_bank, s.fillBank_filling h hf] at hsending
  cases hsending

/-- The other bank is not FILLING. -/
theorem State.fillBank_other : (s.store.bank f.bank.other).state ≠ .filling := fun ho => by
  have hfill := (h.filling f.bank.other).1 ho
  rw [State.store, hf] at hfill
  exact f.bank.other_ne (Option.some.inj hfill).symm

theorem completeFill_stands : (completeFill s f).store.Stands := by
  have hfilling := s.fillBank_filling h hf
  have hstore : (completeFill s f).store =
      { s.store.setBank f.bank (s.bank f.bank).completed with fill := none, transfer := s.store.transfer } := by
    obtain ⟨bank, _, _⟩ := f
    cases bank <;> rfl
  rw [hstore]
  refine h.replace (hne := by rw [State.store_bank, hfilling]; decide) (hok := ?_) (hstate := fun he => by cases he)
    (hsecond := by rw [State.store_bank]; rfl) (hhost := fun hb => by cases hb)
    (hsend := iff_of_false (fun he => by cases he) (s.fillBank_not_transfer h hf))
    (hsendOther := h.transfer f.bank.other) (hfill := iff_of_false (fun he => by cases he) nofun)
    (hfillOther := iff_of_false (s.fillBank_other h hf) nofun) (hsized := nofun)
  have hok := h.banks f.bank
  rw [State.store_bank] at hok
  exact Bank.ok_of_same hok rfl rfl rfl rfl rfl nofun

theorem captureInto_stands (a : Addr) (w : Word) : (captureInto s f a w).store.Stands := by
  have hfilling := s.fillBank_filling h hf
  have hstore : (captureInto s f a w).store = { s.store.setBank f.bank ((captureInto s f a w).bank f.bank) with
      fill := some (f.capturedAt a s.watch.elements), transfer := s.store.transfer } := by
    obtain ⟨bank, _, _⟩ := f
    cases bank <;> rfl
  rw [hstore, captureInto_bank]
  refine h.replace (hne := by rw [State.store_bank, hfilling]; decide) (hok := ?_)
    (hstate := by dsimp only; rw [hfilling]; decide) (hsecond := by rw [State.store_bank])
    (hhost := fun hb => by dsimp only at hb; rw [hfilling] at hb; cases hb)
    (hsend := iff_of_false (by dsimp only; rw [hfilling]; decide) (s.fillBank_not_transfer h hf))
    (hsendOther := h.transfer f.bank.other) (hfill := iff_of_true hfilling rfl)
    (hfillOther := iff_of_false (s.fillBank_other h hf) fun he => f.bank.other_ne (Option.some.inj he).symm) (hsized := ?_)
  · have hok := h.banks f.bank
    rw [State.store_bank] at hok
    exact Bank.ok_of_same hok (capturePlaces_length ..) (capturePlaces_length ..) rfl rfl rfl
      (by dsimp only; rw [hfilling]; decide)
  · rintro g ⟨⟩
    obtain ⟨hlen, hcount⟩ := h.sized f hf
    rw [State.store_bank] at hcount
    simp only [Fill.capturedAt, Store.bank_setBank, capturePlaces_length, hcount]
    exact ⟨hlen, trivial⟩

end

/-- A fill that is settled leaves the store in order (R119). -/
theorem State.settleFill_storeOk {s : State} (h : s.store.Stands) : s.settleFill.store.Ok := by
  cases hf : s.fill with
  | none =>
    rw [State.settleFill, hf]
    exact ⟨h, fun f hg => by cases hf.symm.trans hg⟩
  | some f =>
    by_cases hp : ElemState.pending ∈ f.states
    · rw [State.settleFill_of_pending hf hp]
      exact ⟨h, fun g hg => by cases hf.symm.trans hg; exact hp⟩
    · rw [State.settleFill_of_captured hf hp]
      refine ⟨completeFill_stands h hf, fun g hg => ?_⟩
      rw [completeFill_eq] at hg
      cases hg

theorem State.capture_storeOk {s : State} (h : s.store.Ok) (a : Addr) (w : Word) : (s.capture a w).store.Ok := by
  cases hf : s.fill with
  | none => rw [State.capture_of_none hf]; exact h
  | some f =>
    rw [State.capture_of_some hf]
    exact State.settleFill_storeOk (captureInto_stands h.stands hf a w)

/-! ## The start of a fill (R104, R110 to R113) -/

theorem WatchItem.layout_count (it : WatchItem) : it.layout.count = it.elementCount := by cases it <;> rfl

/-- A BIT item has one element (R93). -/
theorem WatchItem.layout_count_of_bit {it : WatchItem} (h : it.layout.bit ≠ none) : it.layout.count = 1 := by
  cases it with
  | bit a k => rfl
  | word a => exact absurd rfl h
  | pair a => exact absurd rfl h
  | block a n st => exact absurd rfl h
  | grid a n st g gs => exact absurd rfl h

/-- The bank of a new fill is in its place: its layout counts out the elements of the Watch List (R93, R104). -/
theorem State.freshBank_ok {s : State} (h : s.WatchOk) (i : BankId) (p : Option Micros) :
    (s.freshBank i p .filling).ok = true := by
  obtain ⟨-, hlen, helems, -⟩ := h
  refine (Bank.ok_iff _).2 ⟨Bank.empty_words_length, Bank.empty_flags_length, (Bank.layoutOk_iff _).2 ⟨hlen, ?_, ?_, ?_⟩, nofun⟩
  · exact List.length_map _
  · have hcounts : (s.watch.items.map WatchItem.layout).map (fun l => l.count) = s.watch.items.map WatchItem.elementCount := by
      rw [List.map_map]
      exact List.map_congr_left fun it _ => it.layout_count
    show ((s.watch.items.map WatchItem.layout).map (fun l => l.count)).sum = s.watch.elements.length
    rw [hcounts, helems, expandItems, expandFrom_length]
  · intro l hl
    obtain ⟨it, -, rfl⟩ := List.mem_map.1 hl
    exact WatchItem.layout_count_of_bit

theorem State.begun_stands {s : State} (h : s.store.Stands) (hw : s.WatchOk) (hf : s.fill = none) {i : BankId}
    (hi : (s.bank i).state = .empty) (p : Option Micros) : (s.begun i p).store.Stands := by
  have hself : (s.begun i p).store.bank i = s.freshBank i p .filling := by cases i <;> rfl
  have hother : (s.begun i p).store.bank i.other = s.store.bank i.other := by cases i <;> rfl
  have htransfer : (s.begun i p).store.transfer = s.store.transfer := by cases i <;> rfl
  rw [← State.store_bank] at hi
  have hfirst : (s.store.bank i.other).second = false := Bool.eq_false_iff.2 fun hs =>
    (h.order.second i.other hs).1 (by rw [BankId.other_other]; exact hi)
  have hsecond : (s.freshBank i p .filling).second = decide ((s.store.bank i.other).state ≠ .empty) := by
    rw [State.store_bank]; rfl
  refine ⟨?_, ?_, ?_, ⟨?_, ?_⟩, Nat.zero_le _, ?_, ?_⟩
  · refine BankId.forall_of_other i ?_ ?_ <;> simp only [hself, hother]
    · exact State.freshBank_ok hw i p
    · exact h.banks i.other
  · refine BankId.forall_of_other i ?_ ?_ <;> simp only [hself, hother, BankId.other_other]
    · exact fun hb => by cases hb
    · exact fun _ => rfl
  · refine BankId.forall_of_other i ?_ ?_ <;> simp only [hself, hother, htransfer]
    · exact iff_of_false nofun fun ht => by rw [(h.transfer i).2 ht] at hi; cases hi
    · exact h.transfer i.other
  · refine BankId.forall_of_other i ?_ ?_ <;> simp only [hself, hother, BankId.other_other]
    · rw [hsecond]
      exact fun ho => ⟨of_decide_eq_true ho, hfirst⟩
    · exact fun ho => by rw [hfirst] at ho; cases ho
  · refine BankId.forall_of_other i ?_ ?_ <;> simp only [hself, hother, BankId.other_other]
    · rw [hsecond]
      exact fun _ ho hs => absurd ho (of_decide_eq_false hs)
    · rw [hsecond]
      exact fun ho _ _ => decide_eq_true ho
  · refine BankId.forall_of_other i ?_ ?_ <;> simp only [hself, hother]
    · exact iff_of_true rfl rfl
    · have hno : (s.store.bank i.other).state ≠ .filling := fun ho => by
        have hfill := (h.filling i.other).1 ho
        rw [State.store, hf] at hfill
        cases hfill
      exact iff_of_false hno fun he => i.other_ne (Option.some.inj he).symm
  · rintro f ⟨⟩
    have hsize : (s.watch.elements.map (startState s.regions)).length = s.watch.elements.length := List.length_map _
    rw [hself]
    exact ⟨hsize, hsize.symm⟩

/-- A marker leaves the store in order (R110, R111). -/
theorem State.judgeMarker_storeOk {s : State} (h : s.store.Ok) (hw : s.WatchOk) (p : Option Micros) :
    (s.judgeMarker p).store.Ok := by
  by_cases hoff : s.watch.mode = .off
  · rw [State.judgeMarker_of_off hoff]
    exact h
  · by_cases hmissed : s.fill ≠ none ∨ (s.bankA.state ≠ .empty ∧ s.bankB.state ≠ .empty)
    · rw [State.judgeMarker_of_missed hoff hmissed]
      obtain ⟨⟨hbanks, hhost, htransfer, ⟨hsecond, hfirst⟩, hm, hfilling, hsized⟩, howed⟩ := h
      have hcount : countUp s.missed ≤ 255 := by
        unfold countUp
        split
        · assumption
        · exact hm
      exact ⟨⟨hbanks, hhost, htransfer, ⟨hsecond, hfirst⟩, hcount, hfilling, hsized⟩, howed⟩
    · have hfree : s.bankA.state = .empty ∨ s.bankB.state = .empty := by tauto
      have hfill : s.fill = none := by tauto
      rw [State.judgeMarker_of_start hoff hfill hfree, State.startFill_eq]
      refine State.settleFill_storeOk (State.begun_stands h.stands hw hfill ?_ p)
      split
      · assumption
      · exact hfree.resolve_left ‹_›

/-! ## A bank sent, a bank freed, and both cleared (R72, R122, R125) -/

/-- A READY or SENT bank is sent where the host does not hold the other (R122). -/
theorem Store.Stands.send {x : Store} (h : x.Stands) {i : BankId}
    (hi : (x.bank i).state = .ready ∨ (x.bank i).state = .sent) (ho : (x.bank i.other).state.withHost = false) :
    ({ x.setBank i { x.bank i with state := .sending } with transfer := some i } : Store).Stands := by
  have hotherSends : (x.bank i.other).state ≠ .sending := fun hs => by rw [hs] at ho; cases ho
  refine h.move (dest := .sending) ?_ ?_ nofun nofun (fun _ => ho) (iff_of_true rfl rfl)
    (iff_of_false hotherSends fun he => i.other_ne (Option.some.inj he).symm)
  all_goals rcases hi with hi | hi <;> rw [hi] <;> decide

/-- A bank in its place keeps it when it becomes first in fill order (R109). -/
theorem Bank.ok_first {b : Bank} (h : b.ok = true) : ({ b with second := false } : Bank).ok = true := by
  obtain ⟨hwords, hflags, hlayout, hempty⟩ := (Bank.ok_iff b).1 h
  exact (Bank.ok_iff _).2 ⟨hwords, hflags, hlayout, fun he => by rw [hempty he]; rfl⟩

/-- A bank becomes EMPTY and the other is first in fill order (R109, R121). -/
def Store.free (x : Store) (i : BankId) : Store :=
  (x.setBank i Bank.empty).setBank i.other { x.bank i.other with second := false }

@[simp] theorem Store.bank_free (x : Store) (i : BankId) : (x.free i).bank i = Bank.empty := by cases i <;> rfl

@[simp] theorem Store.bank_free_other (x : Store) (i : BankId) :
    (x.free i).bank i.other = { x.bank i.other with second := false } := by cases i <;> rfl

theorem Store.free_fields (x : Store) (i : BankId) : (x.free i).fill = x.fill ∧ (x.free i).elements = x.elements
    ∧ (x.free i).transfer = x.transfer ∧ (x.free i).missed = x.missed := by
  cases i <;> exact ⟨rfl, rfl, rfl, rfl⟩

theorem State.emptyBank_store (s : State) (i : BankId) : (s.emptyBank i).store = s.store.free i := by cases i <;> rfl

/-- The SENT bank is freed (R125). -/
theorem Store.Stands.free {x : Store} (h : x.Stands) {i : BankId} (hi : (x.bank i).state = .sent) : (x.free i).Stands := by
  obtain ⟨hfill, helements, htransfer, hmissed⟩ := x.free_fields i
  refine ⟨?_, ?_, ?_, ⟨?_, ?_⟩, hmissed.trans_le h.missed, ?_, ?_⟩
  · refine BankId.forall_of_other i ?_ ?_ <;> simp only [Store.bank_free, Store.bank_free_other]
    · exact Bank.ok_empty
    · exact Bank.ok_first (h.banks i.other)
  · refine BankId.forall_of_other i ?_ ?_ <;> simp only [Store.bank_free, Store.bank_free_other, BankId.other_other]
    · exact fun hb => by cases hb
    · exact fun _ => rfl
  · refine BankId.forall_of_other i ?_ ?_ <;> simp only [Store.bank_free, Store.bank_free_other, htransfer]
    · exact iff_of_false nofun fun ht => by rw [(h.transfer i).2 ht] at hi; cases hi
    · exact h.transfer i.other
  · refine BankId.forall_of_other i ?_ ?_ <;> simp only [Store.bank_free, Store.bank_free_other]
    · exact fun hs => by cases hs
    · exact fun hs => by cases hs
  · refine BankId.forall_of_other i ?_ ?_ <;> simp only [Store.bank_free, Store.bank_free_other, BankId.other_other]
    · exact fun he => absurd rfl he
    · exact fun _ he => absurd rfl he
  · refine BankId.forall_of_other i ?_ ?_ <;> simp only [Store.bank_free, Store.bank_free_other, hfill]
    · exact iff_of_false nofun fun hf => by rw [(h.filling i).2 hf] at hi; cases hi
    · exact h.filling i.other
  · rw [hfill, helements]
    intro f hf
    obtain ⟨hlen, hcount⟩ := h.sized f hf
    refine ⟨hlen, Eq.trans ?_ hcount⟩
    have hfilling : (x.bank f.bank).state = .filling := (h.filling f.bank).2 (congrArg (Option.map Fill.bank) hf)
    refine BankId.forall_of_other (P := fun j => (x.bank j).state = .filling →
      ((x.free i).bank j).header.elementCount = (x.bank j).header.elementCount) i ?_ ?_ f.bank hfilling
    · exact fun hf => by rw [hi] at hf; cases hf
    · exact fun _ => by rw [Store.bank_free_other]

/-- A store that holds nothing (R72, R89). -/
structure Store.Cleared (x : Store) : Prop where
  banks : ∀ i, x.bank i = Bank.empty
  fill : x.fill = none
  transfer : x.transfer = none
  missed : x.missed = 0

theorem Store.Cleared.ok {x : Store} (h : x.Cleared) : x.Ok := by
  obtain ⟨hb, hf, ht, hm⟩ := h
  refine ⟨⟨?_, ?_, ?_, ⟨?_, ?_⟩, hm ▸ Nat.zero_le _, ?_, ?_⟩, ?_⟩ <;> simp only [hb, hf, ht]
  · exact fun _ => Bank.ok_empty
  · exact fun _ he => by cases he
  · exact fun _ => iff_of_false nofun nofun
  · exact fun _ he => by cases he
  · exact fun _ he => absurd rfl he
  · exact fun _ => iff_of_false nofun nofun
  · nofun
  · nofun

end Sys2Proof.Machine
end

section
/-! What the shared operations do to the Snapshot Store: they leave it, or end a transfer in it. -/

namespace Sys2Proof.Machine

/-- A change ends the transfer in progress in the store, if there is one, or leaves the store as it is. -/
abbrev State.EndsTransfer (s t : State) : Prop := s.store.EndsTransfer t.store

theorem State.EndsTransfer.of_eq {s t : State} (h : t.store = s.store) : s.EndsTransfer t := .inl h

theorem State.EndsTransfer.refl (s : State) : s.EndsTransfer s := .inl rfl

/-- A change that leaves the store, before or after. -/
theorem State.EndsTransfer.after {s u t : State} (h : u.store = s.store) (ht : u.EndsTransfer t) : s.EndsTransfer t := by
  unfold State.EndsTransfer at ht ⊢
  rwa [h] at ht

theorem State.EndsTransfer.then {s u t : State} (hu : s.EndsTransfer u) (h : t.store = u.store) : s.EndsTransfer t := by
  unfold State.EndsTransfer
  rwa [h]

theorem State.EndsTransfer.ite {s t : State} (c : Prop) [Decidable c] (h : s.EndsTransfer t) :
    s.EndsTransfer (if c then t else s) := by
  split
  · exact h
  · exact .refl s

theorem State.endFrame_store (s : State) : s.endFrame.store = s.store := by
  unfold State.endFrame
  dsimp only
  split <;> rfl

theorem State.discardFrame_store (s : State) : s.discardFrame.store = s.store := s.endFrame_store

theorem State.enterStall_store (s : State) : s.enterStall.store = s.store := by
  obtain ⟨_, h⟩ := s.enterStall_changes; rw [h]; rfl

theorem State.renewLease_store (s : State) : s.renewLease.store = s.store := rfl

theorem State.answer_store (s : State) (st : Status) (data : List Byte) : (s.answer st data).store = s.store := rfl

theorem State.actBroadcast_store (s : State) (payload : List Byte) : (s.actBroadcast payload).store = s.store := by
  obtain ⟨_, _, h⟩ := s.actBroadcast_changes payload; rw [h]; rfl

theorem State.decideGrant_store (s : State) : s.decideGrant.store = s.store := by
  obtain ⟨_, _, _, h⟩ := s.decideGrant_changes; rw [h]; rfl

theorem State.tryTake_store (s : State) : s.tryTake.store = s.store := by
  obtain ⟨_, _, _, _, _, _, h⟩ := s.tryTake_changes; rw [h]; rfl

theorem State.moveBus_store (s : State) (p : BusPins) : (s.moveBus p).store = s.store := by
  obtain ⟨_, _, _, _, _, _, h⟩ := s.moveBus_changes p; rw [h]; rfl

/-- The end of a controller grant and the completion of its access (R2, R17). -/
theorem State.endAccess_store (s : State) (word : Option Word) :
    (s.endGrant.afterControllerGrant.completeAccess word).store = s.store := by
  obtain ⟨_, _, _, _, _, _, h⟩ := s.endGrant.afterControllerGrant.completeAccess_changes word
  obtain ⟨_, _, _, h'⟩ := s.endGrant.afterControllerGrant_changes
  rw [h, h']; rfl

theorem State.examineRecord_store (s : State) : s.examineRecord.store = s.store := by
  unfold State.examineRecord
  split <;> rfl

theorem State.enqueue_store (s : State) (new : List Operation) : (s.enqueue new).store = s.store := by
  unfold State.enqueue
  obtain ⟨_, _, _, h⟩ := ({ s with ops := s.ops ++ new } : State).settleHead.claimArrives_changes s.arb
  rw [State.examineRecord_store, h]; rfl

theorem State.retireHead_store (s : State) (w : Word) : (s.retireHead w).store = s.store := by
  unfold State.retireHead
  split
  · rfl
  · rw [State.examineRecord_store, State.decideGrant_store]; rfl

theorem State.abandonRecord_store (s : State) : s.abandonRecord.store = s.store := by
  obtain ⟨_, _, _, h⟩ := s.abandonRecord_changes; rw [h]; rfl

/-- The end of an exchange releases the bank under transfer (R123). -/
theorem State.endExchange_store (s : State) {dest : BankState} : (s.endExchange dest).store = s.store.release dest := by
  unfold State.endExchange State.releaseBank Store.release
  simp only [State.store_bank]
  cases hb : s.exch.bank with
  | none => simp only [State.store, hb]; rfl
  | some i =>
    simp only [State.store, hb]
    split
    · cases i <;> rfl
    · rfl

theorem State.endExchange_endsTransfer (s : State) {dest : BankState} (hd : dest = .ready ∨ dest = .sent) :
    s.EndsTransfer (s.endExchange dest) := .inr ⟨dest, hd, s.endExchange_store⟩

theorem State.endTransfer_endsTransfer (s : State) : s.EndsTransfer s.endTransfer :=
  .ite _ (s.endExchange_endsTransfer (.inl rfl))

/-- The end of a frame, and with it of a transfer (R150, R160). -/
theorem State.endFrameAndTransfer_endsTransfer (s : State) : s.EndsTransfer s.endFrame.endTransfer :=
  .after s.endFrame_store s.endFrame.endTransfer_endsTransfer

theorem State.takeRequest_endsTransfer (s : State) (code : Byte) : s.EndsTransfer (s.takeRequest code) := by
  have htaken (u : State) : ({ u with exch := { u.exch with code := some code } }.enter .executing).store = u.store := rfl
  exact s.endFrameAndTransfer_endsTransfer.then ((htaken _).trans (State.renewLease_store _))

theorem State.serveContinue_endsTransfer (s : State) (segment : Nat) : s.EndsTransfer (s.serveContinue segment) := by
  unfold State.serveContinue
  dsimp only
  split
  · exact .of_eq rfl
  · split
    · exact .of_eq rfl
    · exact .inr ⟨.ready, .inl rfl, s.endExchange_store⟩

theorem State.takeExpiries_endsTransfer (s : State) : s.EndsTransfer s.takeExpiries := by
  have hlease (u : State) : (if u.leaseDue then u.expireLease else u).store = u.store := by
    split <;> rfl
  have hstall (u : State) : (if u.sup.due then u.enterStall else u).store = u.store := by
    split
    · exact u.enterStall_store
    · rfl
  have hcont (u : State) : u.EndsTransfer (if u.continuationDue then u.endTransfer else u) :=
    .ite _ u.endTransfer_endsTransfer
  exact .after (hlease s) (.after (hstall _) (hcont _))

theorem State.countMicro_store (s : State) : s.countMicro.store = s.store := by
  have hbank : s.countMicro.exch.bank = s.exch.bank := by
    unfold State.countMicro
    dsimp only
    split <;> rfl
  simp only [State.store, hbank]
  rfl

end Sys2Proof.Machine
end

section
/-! What a step can do to the Snapshot Store: capture a word, judge a marker, change the Watch List while no bank is FILLING,
send or free a bank, or clear both. Each keeps the store in order. -/

namespace Sys2Proof.Machine

/-! ## The changes of the store at a request or a reset -/

/-- A change of the store at a request or a reset. -/
inductive Store.Change (x : Store) : Store → Prop
  /-- The store stays. -/
  | kept : x.Change x
  /-- The Watch List has other elements, while no bank is FILLING (R97). -/
  | watched (es : List Element) (h : ∀ i, (x.bank i).state ≠ .filling) : x.Change { x with elements := es }
  /-- A bank is sent: the SENT one, or a READY one where none is SENT or under transfer (R122). -/
  | sent (i : BankId) (h : (x.bank i).state = .sent ∨ (x.bank i).state = .ready ∧ (x.bank i.other).state ≠ .sent)
      (ht : x.transfer = none) :
      x.Change { x.setBank i { x.bank i with state := .sending } with transfer := some i }
  /-- The SENT bank is freed (R125). -/
  | freed (i : BankId) (h : (x.bank i).state = .sent) : x.Change (x.free i)
  /-- Every block of the store is cleared (R72, R89). -/
  | cleared {y : Store} (h : y.Cleared) : x.Change y

namespace Store

/-- No fill is in flight while no bank is FILLING. -/
theorem Stands.fill_eq_none {x : Store} (h : x.Stands) (hn : ∀ i, (x.bank i).state ≠ .filling) : x.fill = none := by
  cases hf : x.fill with
  | none => rfl
  | some f => exact absurd ((h.filling f.bank).2 (congrArg (Option.map Fill.bank) hf)) (hn f.bank)

/-- The host does not hold the bank beside the one that is sent. -/
theorem Stands.other_withHost {x : Store} (h : x.Stands) {i : BankId}
    (hi : (x.bank i).state = .sent ∨ (x.bank i).state = .ready ∧ (x.bank i.other).state ≠ .sent) (ht : x.transfer = none) :
    (x.bank i.other).state.withHost = false := by
  rcases hi with hi | ⟨-, hsent⟩
  · exact h.host i (by rw [hi]; rfl)
  · have hsending : (x.bank i.other).state ≠ .sending := fun ho => by
      have := (h.transfer i.other).1 ho
      rw [ht] at this
      cases this
    cases ho : (x.bank i.other).state with
    | sending => exact absurd ho hsending
    | sent => exact absurd ho hsent
    | empty | filling | ready => rfl

theorem Ok.change {x y : Store} (h : x.Ok) (hc : x.Change y) : y.Ok := by
  obtain ⟨hs, howed⟩ := h
  cases hc with
  | kept => exact ⟨hs, howed⟩
  | watched es hn =>
    have hnone := hs.fill_eq_none hn
    have hbank (i : BankId) : ({ x with elements := es } : Store).bank i = x.bank i := bank_congr rfl rfl i
    obtain ⟨hbanks, hhost, htransfer, ⟨hsecond, hfirst⟩, hmissed, hfilling, -⟩ := hs
    refine ⟨⟨?_, ?_, ?_, ⟨?_, ?_⟩, hmissed, ?_, fun f hf => ?_⟩, howed⟩
    · simpa only [hbank] using hbanks
    · simpa only [hbank] using hhost
    · simpa only [hbank] using htransfer
    · simpa only [hbank] using hsecond
    · simpa only [hbank] using hfirst
    · simpa only [hbank] using hfilling
    · cases hnone.symm.trans hf
  | sent i hi ht =>
    exact ⟨hs.send (hi.symm.imp And.left id) (hs.other_withHost hi ht), fun f hf => howed f ((x.setBank_fill i _) ▸ hf)⟩
  | freed i hi => exact ⟨hs.free hi, fun f hf => howed f ((x.free_fields i).1 ▸ hf)⟩
  | cleared hy => exact hy.ok

/-- A fill in flight goes on: its elements and what its bank has captured stay. -/
structure Continues (x y : Store) (f : Fill) : Prop where
  fill : y.fill = some f
  elements : y.elements = x.elements
  words : (y.bank f.bank).words = (x.bank f.bank).words

/-- A request or a reset clears the store, or a fill in flight goes on. -/
theorem Ok.change_continues {x y : Store} (h : x.Ok) {f : Fill} (hf : x.fill = some f) (hc : x.Change y) :
    x.Continues y f ∨ y.Cleared := by
  have hfilling : (x.bank f.bank).state = .filling := (h.stands.filling f.bank).2 (congrArg (Option.map Fill.bank) hf)
  cases hc with
  | kept => exact .inl ⟨hf, rfl, rfl⟩
  | watched es hn => exact absurd hfilling (hn f.bank)
  | sent i _ _ =>
    refine .inl ⟨(x.setBank_fill i _).trans hf, x.setBank_elements i _, ?_⟩
    cases i <;> cases f.bank <;> rfl
  | freed i hi =>
    obtain ⟨hfill, helements, -⟩ := x.free_fields i
    refine .inl ⟨hfill.trans hf, helements, ?_⟩
    refine BankId.forall_of_other (P := fun j => (x.bank j).state = .filling → ((x.free i).bank j).words = (x.bank j).words)
      i ?_ ?_ f.bank hfilling
    · exact fun he => by rw [hi] at he; cases he
    · exact fun _ => by rw [bank_free_other]
  | cleared hy => exact .inr hy

end Store

/-! ## What a command does to the store -/

/-- What a command does to the store. -/
inductive State.StoreStep (s t : State) : Prop
  /-- A word read at memory is captured (R116). -/
  | captured (a : Addr) (h : t.store = (s.capture a (s.mem.readWord a)).store)
      (hl : t.latched = (s.capture a (s.mem.readWord a)).latched)
  /-- A marker is judged (R110, R111). -/
  | marked (x : State) (p : Option Micros) (hx : x.store = s.store) (hw : s.WatchOk → x.WatchOk)
      (h : t.store = (x.judgeMarker p).store)
  /-- A transfer ends, or not, and the store is changed at a request or a reset, or not. -/
  | changed (u : State) (hu : s.EndsTransfer u) (h : u.store.Change t.store)

theorem State.EndsTransfer.step {s t : State} (h : s.EndsTransfer t) : s.StoreStep t := .changed t h .kept

theorem State.StoreStep.of_eq {s t : State} (h : t.store = s.store) : s.StoreStep t := (EndsTransfer.of_eq h).step

theorem State.StoreStep.refl (s : State) : s.StoreStep s := .of_eq rfl

theorem State.StoreStep.ite {s t : State} (c : Prop) [Decidable c] (h : s.StoreStep t) :
    s.StoreStep (if c then t else s) := by
  split
  · exact h
  · exact .refl s

/-- A step keeps the store in order. -/
theorem State.StoreStep.ok {s t : State} (h : s.StoreStep t) (hs : s.store.Ok) (hw : s.WatchOk) : t.store.Ok := by
  cases h with
  | captured a ht _ => exact ht ▸ State.capture_storeOk hs a _
  | marked x p hx hxw ht => exact ht ▸ State.judgeMarker_storeOk (hx ▸ hs) (hxw hw) p
  | changed u hu hc => exact (hs.endsTransfer hu).change hc

end Sys2Proof.Machine
end

section
/-! Every command's part in the Snapshot Store: the requests, the completions at memory, the link and the other commands; and
the step. -/

namespace Sys2Proof.Machine

open State (EndsTransfer StoreStep)

/-! ## The taking of a request -/

/-- A request is taken only while the part does not hold the turn: a frame begun while it does is a violation (R152). -/
theorem State.Requests.not_holdsTurn {s : State} {c : RxChar} {payload : List Byte} (h : s.Requests c payload)
    (hr : s.receiverOk = true) : s.exch.state.holdsTurn = false := by
  unfold State.Requests State.finalByte at h
  unfold State.receiverOk at hr
  split at h
  · cases h
  · rename_i f hrx
    rw [hrx] at hr
    simp only [Bool.and_eq_true, Bool.or_eq_true, Bool.not_eq_true'] at hr
    refine hr.2.resolve_right fun hv => ?_
    split at h
    · cases h
    · split_ifs at h
      rw [State.judgeFrame, if_pos hv] at h
      cases h

/-- No bank is under transfer once a request is taken (R155, R160). -/
theorem State.takeRequest_transfer {s : State} (hlink : s.LinkOk) {c : RxChar} {payload : List Byte}
    (h : s.Requests c payload) (code : Byte) : (s.takeRequest code).exch.bank = none := by
  obtain ⟨hexch, hreceiver, -⟩ := hlink
  have hturn := h.not_holdsTurn hreceiver
  have hframe : s.endFrame.exch.bank = s.exch.bank := congrArg Store.transfer s.endFrame_store
  have hstate : s.endFrame.exch.state = if s.exch.state = .receiving then .idle else s.exch.state := by
    unfold State.endFrame
    dsimp only
    split
    · rfl
    · rfl
  show s.endFrame.endTransfer.exch.bank = none
  unfold State.endTransfer
  split
  · rfl
  · rename_i hawait
    rw [hframe]
    unfold Exchange.ok at hexch
    cases he : s.exch.state with
    | idle | receiving =>
      simp only [he, Bool.and_eq_true, decide_eq_true_eq] at hexch
      rw [hexch.2]
      rfl
    | executing | sending =>
      rw [he] at hturn
      cases hturn
    | awaitContinue =>
      rw [hstate, he] at hawait
      exact absurd rfl hawait

/-! ## The requests that leave the store -/

theorem withoutParams_store {carryOut : State → State} (hk : ∀ u : State, (carryOut u).store = u.store)
    (params : List Byte) (u : State) : (withoutParams carryOut params u).store = u.store := by
  unfold withoutParams
  split
  · exact hk u
  · rfl

theorem doProbe_store (params : List Byte) (u : State) : (doProbe params u).store = u.store := by
  unfold doProbe
  split <;> rfl

theorem doLevel_store (params : List Byte) (u : State) : (doLevel params u).store = u.store := by
  unfold doLevel
  split <;> rfl

theorem doPeek_store (params : List Byte) (u : State) : (doPeek params u).store = u.store := by
  rcases doPeek_outcomes params u with ⟨st, he⟩ | ⟨a, n, he⟩ <;> rw [he]
  · rfl
  · exact State.enqueue_store _ _

theorem doPoke_store (params : List Byte) (u : State) : (doPoke params u).store = u.store := by
  rcases doPoke_outcomes params u with ⟨st, he⟩ | ⟨a, ws, he⟩ <;> rw [he]
  · rfl
  · exact u.enqueue_store _

theorem doForce_store (params : List Byte) (u : State) : (doForce params u).store = u.store := by
  rcases doForce_outcomes params u with ⟨st, he⟩ | ⟨forces, ws, he⟩ <;> rw [he]
  · rfl
  · exact State.enqueue_store _ _

theorem doWatchArm_store (params : List Byte) (u : State) : (doWatchArm params u).store = u.store := by
  unfold doWatchArm
  split
  · rfl
  · split <;> rfl

theorem doScanConfig_store (params : List Byte) (u : State) : (doScanConfig params u).store = u.store := by
  rcases doScanConfig_admitted params u with ⟨st, he⟩ | ⟨v, -, he⟩ <;> rw [he] <;> rfl

theorem doScanStats_store (params : List Byte) (u : State) : (doScanStats params u).store = u.store := by
  unfold doScanStats
  split <;> rfl

theorem doRegionSet_store (params : List Byte) (u : State) : (doRegionSet params u).store = u.store := by
  rcases doRegionSet_admitted params u with ⟨st, he⟩ | ⟨n, r, -, -, -, he⟩ <;> rw [he] <;> rfl

theorem doAlertClear_store (params : List Byte) (u : State) : (doAlertClear params u).store = u.store := by
  unfold doAlertClear
  split <;> rfl

theorem doAlertEnable_store (params : List Byte) (u : State) : (doAlertEnable params u).store = u.store := by
  unfold doAlertEnable
  split <;> rfl

/-! ## The requests that change the store -/

theorem withoutParams_change {carryOut : State → State} {u : State} (hk : u.store.Change (carryOut u).store)
    (params : List Byte) : u.store.Change (withoutParams carryOut params u).store := by
  unfold withoutParams
  split
  · exact hk
  · exact .kept

/-- WATCH DEFINE and WATCH APPEND change the list while no bank is FILLING (R97). -/
theorem State.changeWatch_change (u : State) (new list : List WatchItem) :
    u.store.Change (u.changeWatch new list).store := by
  rcases u.changeWatch_outcomes new list with ⟨st, he⟩ | ⟨hf, w, data, he⟩ <;> rw [he]
  · exact .kept
  · simp only [State.anyFilling, Bool.or_eq_false_iff, decide_eq_false_iff_not] at hf
    exact .watched w.elements ((BankId.forall_iff _).2 hf)

theorem doWatchDefine_change (params : List Byte) (u : State) : u.store.Change (doWatchDefine params u).store := by
  rcases doWatchDefine_outcomes params u with ⟨st, he⟩ | ⟨new, list, he⟩ <;> rw [he]
  · exact .kept
  · exact u.changeWatch_change new list

theorem doWatchAppend_change (params : List Byte) (u : State) : u.store.Change (doWatchAppend params u).store := by
  rcases doWatchAppend_outcomes params u with ⟨st, he⟩ | ⟨new, list, he⟩ <;> rw [he]
  · exact .kept
  · exact u.changeWatch_change new list

/-- SNAP READ selects a SENT bank, or a READY one where none is SENT (R122). -/
theorem State.selectBank_some {u : State} {i : BankId} (h : u.selectBank = some i) :
    (u.bank i).state = .sent ∨ (u.bank i).state = .ready ∧ (u.bank i.other).state ≠ .sent := by
  unfold State.selectBank at h
  split_ifs at h with hsentA hsentB hboth hsecond hreadyA hreadyB <;> cases h
  · exact .inl hsentA
  · exact .inl hsentB
  · simp only [Bool.and_eq_true, decide_eq_true_eq] at hboth
    exact .inr ⟨hboth.2, hsentA⟩
  · simp only [Bool.and_eq_true, decide_eq_true_eq] at hboth
    exact .inr ⟨hboth.1, hsentB⟩
  · exact .inr ⟨hreadyA, hsentB⟩
  · exact .inr ⟨hreadyB, hsentA⟩

theorem State.sendBank_store (u : State) (i : BankId) (map : Bool) : (u.sendBank i map).store =
    { u.store.setBank i { u.store.bank i with state := .sending } with transfer := some i } := by
  cases i <;> rfl

theorem doSnapRead_change (params : List Byte) {u : State} (ht : u.exch.bank = none) :
    u.store.Change (doSnapRead params u).store := by
  unfold doSnapRead
  split
  · exact .kept
  · split
    · exact .kept
    · rename_i i hi
      rw [State.sendBank_store]
      refine .sent i ?_ ht
      simp only [State.store_bank]
      exact State.selectBank_some hi

theorem State.acknowledge_change (u : State) : u.store.Change u.acknowledge.store := by
  have hfree (i : BankId) (hi : (u.bank i).state = .sent) : u.store.Change (u.emptyBank i).store := by
    rw [State.emptyBank_store]
    exact .freed i (by rw [State.store_bank]; exact hi)
  unfold State.acknowledge
  split_ifs with ha hb
  · exact hfree .a ha
  · exact hfree .b hb
  · exact .kept

theorem State.clearSession_cleared {u : State} (ht : u.exch.bank = none) : u.clearSession.store.Cleared :=
  ⟨fun i => by cases i <;> rfl, rfl, ht, rfl⟩

theorem doSessionClear_change (params : List Byte) {u : State} (ht : u.exch.bank = none) :
    u.store.Change (withoutParams (fun v => v.clearSession.answer .ok []) params u).store := by
  refine withoutParams_change ?_ params
  rw [State.answer_store]
  exact .cleared (State.clearSession_cleared ht)

/-- A request changes the store as its carrying out does from the taking. -/
theorem State.onRequest_storeStep {s t : State} (hlink : s.LinkOk) {c : RxChar} {code : Byte}
    {carryOut : List Byte → State → State} (h : s.onRequest c code carryOut = .next t)
    (hk : ∀ params (u : State), u.exch.bank = none → u.store.Change (carryOut params u).store) : s.StoreStep t := by
  unfold State.onRequest at h
  split at h
  · rename_i k params hreq
    cases h
    split
    · exact .changed (s.takeRequest code) (s.takeRequest_endsTransfer code)
        (hk params _ (State.takeRequest_transfer hlink hreq code))
    · exact .refl s
  · cases h
    exact .refl s

/-- A request that leaves the store ends a transfer alone. -/
theorem State.onRequest_storeStep_of_eq {s t : State} {c : RxChar} {code : Byte} {carryOut : List Byte → State → State}
    (h : s.onRequest c code carryOut = .next t) (hk : ∀ params (u : State), (carryOut params u).store = u.store) :
    s.StoreStep t :=
  State.onRequest_keeps s.StoreStep (.refl s) (fun params => ((s.takeRequest_endsTransfer code).then (hk params _)).step) h

/-! ## The completions at memory -/

theorem execControllerReadDataReturn_store {s t : State} (h : execControllerReadDataReturn s = .next t) :
    t.store = s.store := by
  unfold execControllerReadDataReturn at h
  split at h <;> cases h
  · exact s.endAccess_store _
  · rfl

theorem execReservationExpiry_store {s t : State} (h : execReservationExpiry s = .next t) : t.store = s.store := by
  unfold execReservationExpiry at h
  split at h <;> cases h
  · exact State.decideGrant_store _
  · rfl

/-- A controller write is where a marker is judged (R12). -/
theorem execControllerWriteReachesMemory_storeStep {s t : State} (h : execControllerWriteReachesMemory s = .next t) :
    s.StoreStep t := by
  unfold execControllerWriteReachesMemory at h
  split at h <;> cases h
  · rename_i a d lanes acc _ _ _
    generalize hm : ({ s with mem := s.mem.writeWord a d lanes } : State) = m
    have hms : m.store = s.store := hm ▸ rfl
    have hmw : s.WatchOk → m.WatchOk := hm ▸ id
    have hend := (m.markerCheck acc.addr).endAccess_store none
    by_cases hmarker : m.sup.marker = some acc.addr
    · generalize hu : (if m.sup.due = true then m.enterStall else m) = u
      have hus : u.store = m.store := by
        rw [← hu]
        split
        · exact m.enterStall_store
        · rfl
      have huw : m.WatchOk → u.WatchOk :=
        hu ▸ (State.KeepsSession.ite (m.sup.due = true) m.enterStall_keepsSession).watch
      have hcheck : m.markerCheck acc.addr =
          ({ u with sup := u.sup.takeMarker u.time } : State).judgeMarker u.sup.periodAtMarker := by
        rw [State.markerCheck, if_pos hmarker, ← hu]
        rfl
      exact .marked { u with sup := u.sup.takeMarker u.time } u.sup.periodAtMarker (hus.trans hms) (huw ∘ hmw)
        (hend.trans (congrArg State.store hcheck))
    · refine .of_eq (hend.trans ?_)
      rw [State.markerCheck, if_neg hmarker, hms]
  · exact .refl s

theorem execCaptureReadReturn_storeStep {s t : State} (h : execCaptureReadReturn s = .next t) : s.StoreStep t := by
  unfold execCaptureReadReturn at h
  split at h <;> cases h
  · exact .captured _ rfl rfl
  · exact .refl s

theorem execFillReadReturn_storeStep {s t : State} (h : execFillReadReturn s = .next t) : s.StoreStep t := by
  unfold execFillReadReturn at h
  split at h <;> cases h
  · rename_i a _ _
    refine .captured a (State.decideGrant_store _) ?_
    obtain ⟨_, _, _, hd⟩ := State.decideGrant_changes
      { (s.capture a (s.mem.readWord a)).endGrant with
        arb := { (s.capture a (s.mem.readWord a)).endGrant.arb with
          waitF := (s.capture a (s.mem.readWord a)).endGrant.lowestPending.isSome } }
    rw [hd]
    rfl
  · exact .refl s

theorem execReadOperationDataReturn_store {s t : State} (h : execReadOperationDataReturn s = .next t) :
    t.store = s.store := by
  unfold execReadOperationDataReturn at h
  split at h
  · split at h <;> cases h
    · exact s.retireHead_store _
    · rfl
    · rfl
  · cases h; rfl

theorem execWriteOperationReachesMemory_store {s t : State} (h : execWriteOperationReachesMemory s = .next t) :
    t.store = s.store := by
  unfold execWriteOperationReachesMemory at h
  split at h
  · split at h <;> cases h
    · exact State.retireHead_store _ _
    · rfl
    · rfl
  · cases h; rfl

theorem execModifyReadComplete_storeStep {s t : State} (h : execModifyReadComplete s = .next t) : s.StoreStep t := by
  unfold execModifyReadComplete at h
  split at h
  · split at h <;> cases h
    · exact .captured _ rfl rfl
    · exact .refl s
    · exact .refl s
  · cases h; exact .refl s

theorem execModifyWriteReachesMemory_store {s t : State} (h : execModifyWriteReachesMemory s = .next t) :
    t.store = s.store := by
  unfold execModifyWriteReachesMemory at h
  split at h
  · split at h <;> cases h
    · exact State.retireHead_store _ _
    · rfl
    · rfl
  · cases h; rfl

/-! ## Reset and the pins -/

/-- The fall of SYSRSTN clears the store (R89). -/
theorem execSysrstnFall_storeStep {s t : State} (h : execSysrstnFall s = .next t) : s.StoreStep t := by
  cases h
  exact .ite _ (.changed s (.refl s) (.cleared ⟨fun i => by cases i <;> rfl, rfl, rfl, rfl⟩))

theorem execSysrstnRise_store {s t : State} {node : BitVec 4} {rate : BitVec 2} {space : Bool}
    (h : execSysrstnRise node rate space s = .next t) : t.store = s.store := by
  cases h
  split
  · rfl
  · exact State.tryTake_store _

theorem execCtlrunRise_store {s t : State} (h : execCtlrunRise s = .next t) : t.store = s.store := by
  cases h
  dsimp only
  split <;> rfl

theorem execCtlrunFall_store {s t : State} (h : execCtlrunFall s = .next t) : t.store = s.store := by
  cases h
  dsimp only
  split <;> rfl

/-! ## The link -/

theorem execFrameStart_store {s t : State} {c : RxChar} (h : execFrameStart c s = .next t) : t.store = s.store := by
  cases h
  split
  · dsimp only
    split <;> rfl
  · rfl

theorem execFrameCharacterTaken_store {s t : State} {c : RxChar} (h : execFrameCharacterTaken c s = .next t) :
    t.store = s.store := by
  unfold execFrameCharacterTaken at h
  split at h <;> cases h
  · rfl
  · split <;> rfl

theorem State.ite_discardFrame_store (s : State) (c : Prop) [Decidable c] :
    (if c then s.discardFrame else s).store = s.store := by
  split
  · exact s.discardFrame_store
  · rfl

theorem execOverlongLength_store {s t : State} {c : RxChar} (h : execOverlongLength c s = .next t) :
    t.store = s.store := by
  unfold execOverlongLength at h
  split at h <;> cases h
  · rfl
  · exact s.ite_discardFrame_store _

theorem execInterByteTimeout_store {s t : State} (h : execInterByteTimeout s = .next t) : t.store = s.store := by
  unfold execInterByteTimeout at h
  split at h <;> cases h
  · rfl
  · exact s.ite_discardFrame_store _

theorem execBroadcastRequest_endsTransfer {s t : State} {c : RxChar} (h : execBroadcastRequest c s = .next t) :
    s.EndsTransfer t := by
  unfold execBroadcastRequest at h
  split at h <;> cases h
  · exact s.endFrameAndTransfer_endsTransfer.then (State.actBroadcast_store _ _)
  · exact .refl s

theorem execContinueFrame_endsTransfer {s t : State} {c : RxChar} (h : execContinueFrame c s = .next t) :
    s.EndsTransfer t := by
  unfold execContinueFrame at h
  have hrenew : s.endFrame.renewLease.store = s.store := (State.renewLease_store _).trans s.endFrame_store
  split at h <;> cases h
  · split
    · exact .after hrenew (State.serveContinue_endsTransfer _ _)
    · exact .of_eq hrenew
  · exact .of_eq s.endFrame_store
  · exact .refl s

theorem execAbortFrame_endsTransfer {s t : State} {c : RxChar} (h : execAbortFrame c s = .next t) :
    s.EndsTransfer t := by
  unfold execAbortFrame at h
  split at h <;> cases h
  · split
    · exact s.endFrameAndTransfer_endsTransfer.then (State.renewLease_store _)
    · exact s.endFrameAndTransfer_endsTransfer
  · exact .refl s

theorem execBreakLine_endsTransfer {s t : State} (h : execBreakLine s = .next t) : s.EndsTransfer t := by
  cases h
  refine .ite _ (.after (u := { s with rx := ⟨.hunt, true⟩ }) rfl ?_)
  dsimp only
  split
  · exact .refl _
  · exact .of_eq rfl
  · exact .after (State.abandonRecord_store _) (State.endExchange_endsTransfer _ (.inl rfl))
  · exact State.endExchange_endsTransfer _ (.inl rfl)
  · exact State.endExchange_endsTransfer _ (.inl rfl)

theorem execFrameTransmitStart_store {s t : State} (h : execFrameTransmitStart s = .next t) : t.store = s.store := by
  cases h
  split
  · dsimp only
    split
    · split
      · exact s.discardFrame_store
      · rfl
    · rfl
  · rfl

theorem execFrameSent_endsTransfer {s t : State} (h : execFrameSent s = .next t) : s.EndsTransfer t := by
  unfold execFrameSent at h
  split at h <;> cases h
  · exact .refl s
  · exact .ite _ (s.endExchange_endsTransfer (.inl rfl))
  · refine .ite _ ?_
    split
    · exact s.endExchange_endsTransfer (.inr rfl)
    · exact .of_eq rfl

/-- An answered request ends a transfer in its taking alone. -/
theorem State.takeAndAnswer_endsTransfer (s : State) (code : Byte) (st : Status) :
    s.EndsTransfer ((s.takeRequest code).answer st []) :=
  (s.takeRequest_endsTransfer code).then (State.answer_store _ st [])

theorem execEmptyRequest_endsTransfer {s t : State} {c : RxChar} (h : execEmptyRequest c s = .next t) :
    s.EndsTransfer t := by
  cases h
  exact .ite _ (s.takeAndAnswer_endsTransfer 0x00 .format)

theorem execUnknownRequest_endsTransfer {s t : State} {c : RxChar} (h : execUnknownRequest c s = .next t) :
    s.EndsTransfer t := by
  unfold execUnknownRequest at h
  split at h
  · rename_i k _ _
    cases h
    split
    · exact .refl s
    · exact s.takeAndAnswer_endsTransfer k .unknown
  · cases h
    exact .refl s

/-! ## The step -/

/-- Every command is one of the steps of the store. -/
theorem exec_storeStep {i : Instr} {s t : State} (hlink : s.LinkOk) (h : exec i s = .next t) : s.StoreStep t := by
  cases i with
  | accessTake p => cases h; exact .of_eq (s.moveBus_store p)
  | cycleEnd p => cases h; exact .of_eq (s.moveBus_store p)
  | controllerReadDataReturn => exact .of_eq (execControllerReadDataReturn_store h)
  | reservationExpiry => exact .of_eq (execReservationExpiry_store h)
  | controllerWriteReachesMemory => exact execControllerWriteReachesMemory_storeStep h
  | captureReadReturn => exact execCaptureReadReturn_storeStep h
  | fillReadReturn => exact execFillReadReturn_storeStep h
  | readOperationDataReturn => exact .of_eq (execReadOperationDataReturn_store h)
  | writeOperationReachesMemory => exact .of_eq (execWriteOperationReachesMemory_store h)
  | modifyReadComplete => exact execModifyReadComplete_storeStep h
  | modifyWriteReachesMemory => exact .of_eq (execModifyWriteReachesMemory_store h)
  | sysrstnFall => exact execSysrstnFall_storeStep h
  | sysrstnRise node rate space => exact .of_eq (execSysrstnRise_store h)
  | ctlrunRise => exact .of_eq (execCtlrunRise_store h)
  | ctlrunFall => exact .of_eq (execCtlrunFall_store h)
  | scanLimitExpiry => cases h; exact .ite _ (.of_eq s.enterStall_store)
  | leaseExpiry => cases h; exact .ite _ (.of_eq rfl)
  | frameStart c => exact .of_eq (execFrameStart_store h)
  | overlongLength c => exact .of_eq (execOverlongLength_store h)
  | interByteTimeout => exact .of_eq (execInterByteTimeout_store h)
  | badFrame c => cases h; exact .of_eq (s.ite_discardFrame_store _)
  | ignoredFrame c => cases h; exact .ite _ (.of_eq s.endFrame_store)
  | requestOtherNode c => cases h; exact .ite _ s.endFrameAndTransfer_endsTransfer.step
  | broadcastRequest c => exact (execBroadcastRequest_endsTransfer h).step
  | continueFrame c => exact (execContinueFrame_endsTransfer h).step
  | abortFrame c => exact (execAbortFrame_endsTransfer h).step
  | continuationLimit => cases h; exact .ite _ s.endTransfer_endsTransfer.step
  | breakLine => exact (execBreakLine_endsTransfer h).step
  | frameTransmitStart => exact .of_eq (execFrameTransmitStart_store h)
  | frameSent => exact (execFrameSent_endsTransfer h).step
  | emptyRequest c => exact (execEmptyRequest_endsTransfer h).step
  | unknownRequest c => exact (execUnknownRequest_endsTransfer h).step
  | probe c => exact State.onRequest_storeStep_of_eq h doProbe_store
  | identify c => exact State.onRequest_storeStep_of_eq h (withoutParams_store fun _ => rfl)
  | status c => exact State.onRequest_storeStep_of_eq h (withoutParams_store fun _ => rfl)
  | level c => exact State.onRequest_storeStep_of_eq h doLevel_store
  | sessionClear c =>
    exact State.onRequest_storeStep hlink h fun params _ ht => doSessionClear_change params ht
  | peek c => exact State.onRequest_storeStep_of_eq h doPeek_store
  | poke c => exact State.onRequest_storeStep_of_eq h doPoke_store
  | sync c => exact State.onRequest_storeStep_of_eq h (withoutParams_store fun _ => State.examineRecord_store _)
  | force c => exact State.onRequest_storeStep_of_eq h doForce_store
  | releaseAll c => exact State.onRequest_storeStep_of_eq h (withoutParams_store fun _ => rfl)
  | forceList c => exact State.onRequest_storeStep_of_eq h (withoutParams_store fun _ => rfl)
  | watchDefine c => exact State.onRequest_storeStep hlink h fun params u _ => doWatchDefine_change params u
  | watchAppend c => exact State.onRequest_storeStep hlink h fun params u _ => doWatchAppend_change params u
  | watchList c => exact State.onRequest_storeStep_of_eq h (withoutParams_store fun _ => rfl)
  | watchArm c => exact State.onRequest_storeStep_of_eq h doWatchArm_store
  | watchStop c => exact State.onRequest_storeStep_of_eq h (withoutParams_store fun _ => rfl)
  | snapRead c => exact State.onRequest_storeStep hlink h fun params _ ht => doSnapRead_change params ht
  | snapAck c =>
    exact State.onRequest_storeStep hlink h fun params u _ => withoutParams_change u.acknowledge_change params
  | scanConfig c => exact State.onRequest_storeStep_of_eq h doScanConfig_store
  | scanStats c => exact State.onRequest_storeStep_of_eq h doScanStats_store
  | regionSet c => exact State.onRequest_storeStep_of_eq h doRegionSet_store
  | regionList c => exact State.onRequest_storeStep_of_eq h (withoutParams_store fun _ => rfl)
  | logRead c => exact State.onRequest_storeStep_of_eq h (withoutParams_store fun _ => rfl)
  | alertClear c => exact State.onRequest_storeStep_of_eq h doAlertClear_store
  | alertEnable c => exact State.onRequest_storeStep_of_eq h doAlertEnable_store
  | timeBaseTick => cases h; exact .ite _ (s.takeExpiries_endsTransfer.then (State.countMicro_store _)).step
  | lrxReturnsToMark => cases h; exact .of_eq rfl
  | frameCharacterTaken c => exact .of_eq (execFrameCharacterTaken_store h)
  | turnViolationAtFinalByte c => cases h; exact .of_eq (s.ite_discardFrame_store _)

/-- Settles O58: an empty queue idles, and every command is a step of the store, which keeps it in order. -/
theorem banksKept : Obligations.BanksKept := by
  intro s t hcoherent hstep
  have hok : s.store.Ok := s.storeOk_iff.2 ⟨hcoherent.fill, hcoherent.banks⟩
  refine t.storeOk_iff.1 ?_
  unfold step at hstep
  split at hstep
  · cases hstep
    exact hok
  · rename_i i rest _
    exact (exec_storeStep (s := { s with pending := rest }) hcoherent.link hstep).ok hok hcoherent.watch

end Sys2Proof.Machine
end

section
/-! A fill in flight, step by step (R108, R114 to R119, R129): it goes on, captures a word, or is abandoned; and memory under a
PENDING element stays. -/

namespace Sys2Proof.Machine

/-! ## What a step does to a fill in flight -/

theorem Store.EndsTransfer.continues {x y z : Store} {f : Fill} (h : x.EndsTransfer y) (hc : y.Continues z f) :
    x.Continues z f := by
  obtain ⟨-, helements, hwords⟩ := h.fields
  obtain ⟨hfill, helements', hwords'⟩ := hc
  exact ⟨hfill, helements'.trans helements, hwords'.trans (hwords f.bank)⟩

/-- A marker during a fill is missed (R111). -/
theorem State.judgeMarker_continues {x : State} {f : Fill} (hf : x.fill = some f) (p : Option Micros) :
    x.store.Continues (x.judgeMarker p).store f := by
  by_cases hoff : x.watch.mode = .off
  · rw [State.judgeMarker_of_off hoff]
    exact ⟨hf, rfl, rfl⟩
  · rw [State.judgeMarker_of_missed hoff (.inl (by rw [hf]; nofun))]
    exact ⟨hf, rfl, congrArg Bank.words (Store.bank_congr rfl rfl f.bank)⟩

/-- A fill in flight captures a word read at memory, goes on, or is abandoned (R116, R129). -/
theorem State.StoreStep.fill_cases {s t : State} (h : s.StoreStep t) (hs : s.store.Ok) {f : Fill} (hf : s.fill = some f) :
    (∃ a, t.store = (s.capture a (s.mem.readWord a)).store ∧ t.latched = (s.capture a (s.mem.readWord a)).latched)
      ∨ s.store.Continues t.store f ∨ t.store.Cleared := by
  cases h with
  | captured a ht hl => exact .inl ⟨a, ht, hl⟩
  | marked x p hx _ ht =>
    have hxf : x.fill = some f := (congrArg Store.fill hx).trans hf
    rw [ht, ← hx]
    exact .inr (.inl (State.judgeMarker_continues hxf p))
  | changed u hu hc =>
    have huf : u.fill = some f := hu.fields.1.trans hf
    exact .inr (((hs.endsTransfer hu).change_continues huf hc).imp_left hu.continues)

/-! ## Memory under a PENDING element (R117) -/

/-- While a fill goes on no command writes the word of a PENDING element: a write follows its capture read. -/
theorem exec_pending_untouched {i : Instr} {s t : State} (he : exec i s = .next t) (hwf : s.mem.wf) (hpath : s.PathOk)
    {f : Fill} (hf : s.fill = some f) (hgo : t.fill ≠ none) {n : Nat} {a : Addr}
    (howed : Owed s.watch.elements f.states n a) : t.mem.readWord a = s.mem.readWord a := by
  by_contra hread
  have hmem : t.mem ≠ s.mem := fun hm => hread (by rw [hm])
  obtain ⟨-, h, b, d, lanes, hset, hwrite⟩ := exec_mem_changed he hmem
  rcases hset with ⟨-, hport⟩ | ⟨-, rfl⟩
  · obtain ⟨-, -, -, -, -, hcaptured, -⟩ := hpath
    simp only [State.writeCaptured, hport, Bool.not_eq_true'] at hcaptured
    have hne : a ≠ b := fun hab =>
      Bool.eq_false_iff.1 hcaptured ((s.pendingAt_iff b).2 ⟨f, n, hf, hab ▸ howed⟩)
    rw [hwrite, Memory.readWord_writeWord_other s.mem hwf b a d lanes hne] at hread
    exact hread rfl
  · have ht : (if s.sysrstn then s.carryGrant.resetBlocks else s) = t := by injection he
    split at ht
    · exact hgo (ht ▸ rfl)
    · exact hmem (ht ▸ rfl)

/-! ## A capture during a fill (R116, R119) -/

/-- The bank holds for an element its word as memory held it, with the frozen view overlaid (R42, R116). -/
def State.TakenIn (s : State) (f : Fill) (b : Bank) (n : Nat) (e : Element) : Prop :=
  ∃ x, b.words[n]? = some x
    ∧ ∀ i < 16, x.getLsbD i = (forcedAt (entryFor f.frozen e.addr) i).getD ((s.mem.readWord e.addr).getLsbD i)

/-- What SnapshotCoherent says of a step during a fill. -/
def State.KeepsFill (s t : State) (f : Fill) : Prop :=
  (∀ g, t.fill = some g →
    g.bank = f.bank ∧ g.frozen = f.frozen ∧ t.watch.elements = s.watch.elements
    ∧ ∀ (n : Nat) (e : Element), s.watch.elements[n]? = some e →
      (f.states[n]? = some .captured →
        g.states[n]? = some .captured ∧ (t.bank f.bank).words[n]? = (s.bank f.bank).words[n]?)
      ∧ (f.states[n]? = some .pending →
        (g.states[n]? = some .pending ∧ t.mem.readWord e.addr = s.mem.readWord e.addr)
          ∨ (g.states[n]? = some .captured ∧ s.TakenIn f (t.bank f.bank) n e)))
  ∧ (t.fill = none →
    (t.bank f.bank).state = .empty
    ∨ ((t.bank f.bank).state = .ready ∧ t.latched.snapReady = true
      ∧ ∀ (n : Nat) (e : Element), s.watch.elements[n]? = some e →
        (f.states[n]? = some .captured → (t.bank f.bank).words[n]? = (s.bank f.bank).words[n]?)
        ∧ (f.states[n]? = some .pending → s.TakenIn f (t.bank f.bank) n e)))

/-- While the fill goes on, memory under each PENDING element stays. -/
def State.LeavesPending (s t : State) (f : Fill) : Prop :=
  t.fill ≠ none → ∀ (n : Nat) (e : Element), s.watch.elements[n]? = some e → f.states[n]? = some .pending →
    t.mem.readWord e.addr = s.mem.readWord e.addr

/-- A step that leaves the fill. -/
theorem Store.Continues.keepsFill {s t : State} {f : Fill} (h : s.store.Continues t.store f)
    (hmem : s.LeavesPending t f) : s.KeepsFill t f := by
  obtain ⟨hfill, helements, hwords⟩ := h
  have hfill : t.fill = some f := hfill
  rw [State.store_bank, State.store_bank] at hwords
  refine ⟨fun g hg => ?_, fun hnone => by rw [hfill] at hnone; cases hnone⟩
  cases hfill.symm.trans hg
  exact ⟨rfl, rfl, helements, fun n e he =>
    ⟨fun hc => ⟨hc, by rw [hwords]⟩, fun hp => .inl ⟨hp, hmem (by rw [hfill]; nofun) n e he hp⟩⟩⟩

/-- A step that abandons the fill (R129). -/
theorem Store.Cleared.keepsFill {s t : State} {f : Fill} (h : t.store.Cleared) : s.KeepsFill t f := by
  obtain ⟨hbanks, hfill, -⟩ := h
  have hfill : t.fill = none := hfill
  refine ⟨fun g hg => (by rw [hfill] at hg; cases hg), fun _ => .inl ?_⟩
  rw [← State.store_bank, hbanks]
  rfl

/-- A step that captures the word at an address. -/
theorem State.keepsFill_of_captured {s t : State} {f : Fill} (hs : s.store.Ok) (hmax : s.watch.elements.length ≤ 256)
    (hf : s.fill = some f) (a : Addr) (hstore : t.store = (s.capture a (s.mem.readWord a)).store)
    (hlatched : t.latched = (s.capture a (s.mem.readWord a)).latched) (hmem : s.LeavesPending t f) : s.KeepsFill t f := by
  obtain ⟨hlen, hcount⟩ := hs.stands.sized f hf
  obtain ⟨hwords, hflags, -⟩ := (Bank.ok_iff _).1 (hs.stands.banks f.bank)
  rw [State.store_bank] at hcount hwords hflags
  obtain ⟨hhit, hmiss, hleft, hdone⟩ :=
    wordCaptured s f a (s.mem.readWord a) hf hlen hmax hwords hflags (hcount.trans hlen)
  obtain ⟨x, y, l, z, b, hchanges⟩ := s.capture_changes a (s.mem.readWord a)
  have hbank : t.bank f.bank = (s.capture a (s.mem.readWord a)).bank f.bank := by
    rw [← State.store_bank, hstore, State.store_bank]
  have hfill : t.fill = (s.capture a (s.mem.readWord a)).fill := congrArg Store.fill hstore
  have helements : t.watch.elements = s.watch.elements := by
    have hcaptured := congrArg Store.elements hstore
    rw [hchanges] at hcaptured
    exact hcaptured
  have hkept (n : Nat) (hn : f.states[n]? = some .captured) :
      (t.bank f.bank).words[n]? = (s.bank f.bank).words[n]? := by
    rw [hbank]
    exact (hmiss n fun e _ ⟨hp, _⟩ => by rw [hn] at hp; cases hp).1
  have htaken (n : Nat) (e : Element) (he : s.watch.elements[n]? = some e) (hp : f.states[n]? = some .pending)
      (ha : e.addr = a) : s.TakenIn f (t.bank f.bank) n e := by
    obtain ⟨x, hx, hbits⟩ := (hhit n e he ⟨hp, ha⟩).1
    exact ⟨x, hbank ▸ hx, ha ▸ hbits⟩
  by_cases h : ∃ (n : Nat) (e : Element), s.watch.elements[n]? = some e ∧ f.states[n]? = some .pending ∧ e.addr ≠ a
  · obtain ⟨g, hg, hgbank, hfrozen, -, hstates, -⟩ := hleft h
    have hgo : t.fill = some g := hfill.trans hg
    refine ⟨fun g' hg' => ?_, fun hnone => (by rw [hgo] at hnone; cases hnone)⟩
    cases hgo.symm.trans hg'
    refine ⟨hgbank, hfrozen, helements, fun n e he => ?_⟩
    obtain ⟨hcaptured, hstays⟩ := hstates n e he
    refine ⟨fun hc => ⟨?_, hkept n hc⟩, fun hp => ?_⟩
    · exact (hstays fun ⟨hp, _⟩ => by rw [hc] at hp; cases hp).trans hc
    · by_cases ha : e.addr = a
      · exact .inr ⟨hcaptured ⟨hp, ha⟩, htaken n e he hp ha⟩
      · exact .inl ⟨(hstays fun hit => ha hit.2).trans hp, hmem (by rw [hgo]; nofun) n e he hp⟩
  · obtain ⟨hready, -, hended⟩ := hdone h
    have hnone : t.fill = none := hfill.trans (by rw [hended])
    refine ⟨fun g hg => (by rw [hnone] at hg; cases hg), fun _ => .inr ⟨hbank ▸ hready, by rw [hlatched, hended], ?_⟩⟩
    exact fun n e he => ⟨hkept n, fun hp => htaken n e he hp (by_contra fun ha => h ⟨n, e, he, hp, ha⟩)⟩

/-- Settles O59: a fill in flight captures the word at an address, goes on as it stands, or is abandoned. -/
theorem snapshotCoherent : Obligations.SnapshotCoherent := by
  intro s t f hcoherent hstep hf
  show s.KeepsFill t f
  have hok : s.store.Ok := s.storeOk_iff.2 ⟨hcoherent.fill, hcoherent.banks⟩
  obtain ⟨-, hmax, -⟩ := hcoherent.watch
  unfold step at hstep
  split at hstep
  · cases hstep
    exact Store.Continues.keepsFill ⟨hf, rfl, rfl⟩ fun _ _ _ _ _ => rfl
  · rename_i i rest _
    have hmem : ({ s with pending := rest } : State).LeavesPending t f := fun hgo n e he hp =>
      exec_pending_untouched hstep hcoherent.mem hcoherent.path hf hgo ⟨hp, e, he, rfl⟩
    have hstep' := exec_storeStep (s := { s with pending := rest }) hcoherent.link hstep
    show ({ s with pending := rest } : State).KeepsFill t f
    rcases hstep'.fill_cases hok hf with ⟨a, hstore, hlatched⟩ | hgo | hcleared
    · exact State.keepsFill_of_captured hok hmax hf a hstore hlatched hmem
    · exact hgo.keepsFill hmem
    · exact hcleared.keepsFill

end Sys2Proof.Machine
end

section
/-! SNAP READ and SNAP ACK (R121, R122, R125, R184): the bank selected, and the bank freed. -/

namespace Sys2Proof.Machine

/-! ## The banks after the taking of a request -/

/-- The taking ends a transfer alone: a bank is SENT, or EMPTY, as it was, and keeps its place in fill order (R123). -/
theorem State.takeRequest_bankPlace (s : State) (code : Byte) (i : BankId) :
    (((s.takeRequest code).bank i).state = .sent ↔ (s.bank i).state = .sent)
      ∧ (((s.takeRequest code).bank i).state = .empty ↔ (s.bank i).state = .empty)
      ∧ ((s.takeRequest code).bank i).second = (s.bank i).second := by
  rcases s.takeRequest_bank code i with h | ⟨hs, h⟩ <;> rw [h]
  · exact ⟨.rfl, .rfl, rfl⟩
  · rw [hs]
    exact ⟨iff_of_false nofun nofun, iff_of_false nofun nofun, rfl⟩

section
variable {s : State} (h : s.banksOk = true) (code : Byte) {i : BankId}
include h

/-- At most one bank is SENT (R120). -/
theorem State.takeRequest_sent_once (hi : ((s.takeRequest code).bank i).state = .sent) :
    ((s.takeRequest code).bank i.other).state ≠ .sent := by
  obtain ⟨-, hhost, -⟩ := s.banksOk_iff.1 h
  rw [(s.takeRequest_bankPlace code i).1] at hi
  rw [ne_eq, (s.takeRequest_bankPlace code i.other).1]
  intro ho
  have hother := hhost i (by rw [hi]; rfl)
  rw [ho] at hother
  cases hother

/-- Of two banks that are not EMPTY one is second (R109). -/
theorem State.takeRequest_second (hi : ((s.takeRequest code).bank i).state ≠ .empty)
    (ho : ((s.takeRequest code).bank i.other).state ≠ .empty) (hs : ((s.takeRequest code).bank i).second = false) :
    ((s.takeRequest code).bank i.other).second = true := by
  obtain ⟨-, -, -, -, hfirst, -⟩ := s.banksOk_iff.1 h
  obtain ⟨-, hempty, hsecond⟩ := s.takeRequest_bankPlace code i
  obtain ⟨-, hemptyOther, hsecondOther⟩ := s.takeRequest_bankPlace code i.other
  rw [hsecondOther]
  exact hfirst i (mt hempty.2 hi) (mt hemptyOther.2 ho) (hsecond ▸ hs)

end

/-! ## The bank SNAP READ selects (R122) -/

theorem State.selectBank_of_sent {u : State} {i : BankId} (hi : (u.bank i).state = .sent)
    (ho : (u.bank i.other).state ≠ .sent) : u.selectBank = some i := by
  cases i with
  | a => exact if_pos hi
  | b => exact (if_neg ho).trans (if_pos hi)

/-- With no bank SENT, a READY bank that is alone or first is selected. -/
theorem State.selectBank_of_ready {u : State} {i : BankId} (hi : (u.bank i).state = .ready)
    (ho : (u.bank i.other).state ≠ .sent)
    (hfirst : (u.bank i.other).state = .ready → (u.bank i).second = false ∧ (u.bank i.other).second = true) :
    u.selectBank = some i := by
  have hself : (u.bank i).state ≠ .sent := by rw [hi]; nofun
  cases i with
  | a =>
    have hi : u.bankA.state = .ready := hi
    have hself : u.bankA.state ≠ .sent := hself
    have ho : u.bankB.state ≠ .sent := ho
    rw [State.selectBank, if_neg hself, if_neg ho]
    by_cases hb : u.bankB.state = .ready
    · have hsecond : u.bankA.second = false := (hfirst hb).1
      simp [hi, hb, hsecond]
    · simp [hi, hb]
  | b =>
    have hi : u.bankB.state = .ready := hi
    have hself : u.bankB.state ≠ .sent := hself
    have ho : u.bankA.state ≠ .sent := ho
    rw [State.selectBank, if_neg ho, if_neg hself]
    by_cases ha : u.bankA.state = .ready
    · have hsecond : u.bankA.second = true := (hfirst ha).2
      simp [hi, ha, hsecond]
    · simp [hi, ha]

theorem State.selectBank_of_none {u : State} (h : ∀ i, (u.bank i).state ≠ .sent ∧ (u.bank i).state ≠ .ready) :
    u.selectBank = none := by
  refine Option.eq_none_iff_forall_ne_some.2 fun i hi => ?_
  rcases State.selectBank_some hi with hsent | ⟨hready, -⟩
  · exact (h i).1 hsent
  · exact (h i).2 hready

/-! ## The requests carried out -/

/-- The state from which a bank's readout is answered (R122). -/
def State.transferring (u : State) (i : BankId) : State :=
  { u.setBank i { u.bank i with state := .sending } with exch := { u.exch with bank := some i } }

theorem doSnapRead_of_selected {params : List Byte} {map : Bool} {u : State} {i : BankId}
    (hp : parseFlag params = some map) (hi : u.selectBank = some i) :
    doSnapRead params u = (u.transferring i).answer .ok ((u.bank i).readout map) := by
  simp only [doSnapRead, hp, hi]
  cases i <;> rfl

theorem doSnapRead_of_none {params : List Byte} {map : Bool} {u : State} (hp : parseFlag params = some map)
    (hi : u.selectBank = none) : doSnapRead params u = u.answer .noneReady [] := by
  simp only [doSnapRead, hp, hi]

theorem doSnapRead_of_format {params : List Byte} (hp : parseFlag params = none) (u : State) :
    doSnapRead params u = u.answer .format [] := by
  rw [doSnapRead, hp]

theorem State.acknowledge_of_sent {u : State} {i : BankId} (hi : (u.bank i).state = .sent)
    (ho : (u.bank i.other).state ≠ .sent) : u.acknowledge = (u.emptyBank i).answer .ok [] := by
  cases i with
  | a => exact if_pos hi
  | b => exact (if_neg ho).trans (if_pos hi)

theorem State.acknowledge_of_none {u : State} (h : ∀ i, (u.bank i).state ≠ .sent) :
    u.acknowledge = u.answer .noneReady [] := (if_neg (h .a)).trans (if_neg (h .b))

/-- SNAP READ replies with the readout of the bank it selects. -/
theorem snapRead_replies {s : State} {c : RxChar} {params : List Byte} {map : Bool} {i : BankId}
    (h : s.Requests c (0x38 :: params)) (hp : parseFlag params = some map) (hi : (s.takeRequest 0x38).selectBank = some i) :
    Replies (.snapRead c) s ((s.takeRequest 0x38).transferring i) 0x38 .ok (((s.takeRequest 0x38).bank i).readout map) := by
  refine ⟨((s.takeRequest 0x38).transferring i).answer .ok (((s.takeRequest 0x38).bank i).readout map), ?_,
    State.answer_answers _ _ _ _ rfl ?_⟩
  · rw [← doSnapRead_of_selected hp hi]
    exact State.onRequest_requests s c 0x38 params doSnapRead h
  · have hlease : ((s.takeRequest 0x38).transferring i).lease = (s.takeRequest 0x38).lease := by cases i <;> rfl
    rw [hlease]
    exact s.takeRequest_follow 0x38

/-- SNAP ACK frees the SENT bank. -/
theorem snapAck_replies {s : State} {c : RxChar} {i : BankId} (h : s.Requests c [0x39])
    (hack : (s.takeRequest 0x39).acknowledge = ((s.takeRequest 0x39).emptyBank i).answer .ok []) :
    Replies (.snapAck c) s ((s.takeRequest 0x39).emptyBank i) 0x39 .ok [] := by
  refine State.onRequest_replies rfl h ((if_pos rfl).trans hack) ?_ ?_
  all_goals cases i <;> rfl

/-- Settles O47: by the bank selected, the bank SENT, and the payload. -/
theorem snapshotsRead : Obligations.SnapshotsRead := by
  refine fun s c params hok => ⟨?_, ?_⟩
  · rintro hreq u rfl
    refine ⟨fun i map hmap hi => ?_, fun map hmap hnone => ?_, fun hformat => ?_⟩
    · refine snapRead_replies hreq ((parseFlag_some params map).2 hmap) ?_
      rcases hi with hsent | ⟨hready, hother, hfirst⟩
      · exact State.selectBank_of_sent hsent (State.takeRequest_sent_once hok 0x38 hsent)
      · refine State.selectBank_of_ready hready hother fun ho => ⟨hfirst ho, ?_⟩
        exact State.takeRequest_second hok 0x38 (by rw [hready]; nofun) (by rw [ho]; nofun) (hfirst ho)
    · exact State.onRequest_replies rfl hreq
        (doSnapRead_of_none ((parseFlag_some params map).2 hmap) (State.selectBank_of_none hnone)) rfl rfl
    · refine State.onRequest_replies rfl hreq (doSnapRead_of_format ?_ _) rfl rfl
      exact Option.eq_none_iff_forall_ne_some.2 fun map hp => hformat map ((parseFlag_some params map).1 hp)
  · rintro u rfl
    refine ⟨fun hreq => ⟨fun i hi => ?_, fun hnone => ?_⟩, fun hparams hreq => withoutParams_format rfl hparams hreq⟩
    · exact snapAck_replies hreq (State.acknowledge_of_sent hi (State.takeRequest_sent_once hok 0x39 hi))
    · exact State.onRequest_replies rfl hreq ((if_pos rfl).trans (State.acknowledge_of_none hnone)) rfl rfl

end Sys2Proof.Machine
end

section
/-! The bytes of a readout (R126 to R128, R196, R197): its header, its values item by item, and its map of forced flags. -/

namespace Sys2Proof.Machine

/-! ## The values (R127) -/

/-- The bytes of an item's values: one for a BIT item, two for each element of every other. -/
def LayoutItem.size (l : LayoutItem) : Nat := if l.bit = none then 2 * l.count else 1

/-- The elements of a run of items. -/
def layoutElements (layout : List LayoutItem) : Nat := (layout.map (fun l => l.count)).sum

/-- The bytes of a run of items. -/
def layoutBytes (layout : List LayoutItem) : Nat := (layout.map LayoutItem.size).sum

theorem layoutElements_cons (l : LayoutItem) (layout : List LayoutItem) :
    layoutElements (l :: layout) = l.count + layoutElements layout := rfl

theorem layoutBytes_cons (l : LayoutItem) (layout : List LayoutItem) :
    layoutBytes (l :: layout) = l.size + layoutBytes layout := rfl

theorem valuesLength_eq (layout : List LayoutItem) : valuesLength layout = layoutBytes layout := by
  induction layout with
  | nil => rfl
  | cons l rest ih =>
    rw [valuesLength, ih, layoutBytes_cons, LayoutItem.size]
    cases l.bit <;> rfl

theorem wordBytes_eq (w : Word) : wordBytes w = [BitVec.ofNat 8 (w.toNat / 256), BitVec.ofNat 8 w.toNat] := by
  have h := field_two w
  rwa [field, field, field, pow_one, pow_zero, Nat.div_one, eq_comm] at h

/-- The two bytes of the word at a place. -/
theorem flatMap_wordBytes_getElem? (ws : List Word) (j : Nat) :
    (ws.flatMap wordBytes)[2 * j]? = ws[j]?.map (fun w => BitVec.ofNat 8 (w.toNat / 256))
      ∧ (ws.flatMap wordBytes)[2 * j + 1]? = ws[j]?.map (fun w => BitVec.ofNat 8 w.toNat) := by
  induction ws generalizing j with
  | nil => exact ⟨rfl, rfl⟩
  | cons w ws ih =>
    rw [List.flatMap_cons, wordBytes_eq]
    cases j with
    | zero => exact ⟨rfl, rfl⟩
    | succ j => exact ih j

theorem LayoutItem.values_length {l : LayoutItem} {ws : List Word} (hws : ws.length = l.count)
    (hbit : l.bit ≠ none → l.count = 1) : (l.values ws).length = l.size := by
  unfold LayoutItem.values LayoutItem.size
  cases hb : l.bit with
  | none => simp [List.length_flatMap, wordBytes_eq, hws, Nat.mul_comm]
  | some i => simp [hws, hbit (by rw [hb]; nofun)]

section
variable {layout : List LayoutItem} (hbit : ∀ l ∈ layout, l.bit ≠ none → l.count = 1)
include hbit

theorem valuesPart_length {ws : List Word} (hws : layoutElements layout ≤ ws.length) :
    (valuesPart layout ws).length = layoutBytes layout := by
  induction layout generalizing ws with
  | nil => rfl
  | cons l rest ih =>
    obtain ⟨hl, hrest⟩ := List.forall_mem_cons.1 hbit
    rw [layoutElements_cons] at hws
    rw [valuesPart, List.length_append, LayoutItem.values_length (List.length_take_of_le (by omega)) hl,
      ih hrest (by rw [List.length_drop]; omega), layoutBytes_cons]

/-- The values of an item stand behind those of the items before it, and are of its own words. -/
theorem valuesPart_drop {ws : List Word} (hws : layoutElements layout ≤ ws.length) {k : Nat} {l : LayoutItem}
    (hl : layout[k]? = some l) :
    layoutElements (layout.take k) + l.count ≤ layoutElements layout
      ∧ ∃ rest, (valuesPart layout ws).drop (layoutBytes (layout.take k))
        = l.values ((ws.drop (layoutElements (layout.take k))).take l.count) ++ rest := by
  induction layout generalizing ws k with
  | nil => cases hl
  | cons x xs ih =>
    obtain ⟨hx, hxs⟩ := List.forall_mem_cons.1 hbit
    rw [layoutElements_cons] at hws ⊢
    cases k with
    | zero =>
      cases hl
      exact ⟨(Nat.zero_add _).trans_le (Nat.le_add_right _ _), _, rfl⟩
    | succ k =>
      obtain ⟨hle, rest, hrest⟩ := ih hxs (ws := ws.drop x.count) (by rw [List.length_drop]; omega) hl
      have hvalues : (x.values (ws.take x.count)).length = x.size :=
        LayoutItem.values_length (List.length_take_of_le (by omega)) hx
      rw [List.take_succ_cons, layoutElements_cons, layoutBytes_cons]
      refine ⟨by omega, rest, ?_⟩
      rw [valuesPart, ← List.drop_drop, ← List.drop_drop, List.drop_left' hvalues, hrest]

end

theorem byteOfBool_eq (x : Bool) : byteOfBool x = BitVec.ofNat 8 x.toNat := by cases x <;> rfl

theorem LayoutItem.values_of_word {l : LayoutItem} (h : l.bit = none) (ws : List Word) :
    l.values ws = ws.flatMap wordBytes := by
  rw [LayoutItem.values, h]

/-- A BIT item's byte is its bit of its word. -/
theorem LayoutItem.values_of_bit {l : LayoutItem} {i : BitVec 4} (h : l.bit = some i) {ws : List Word} {w : Word}
    (hw : ws[0]? = some w) : (l.values ws)[0]? = some (BitVec.ofNat 8 (w.getLsbD i.toNat).toNat) := by
  rw [LayoutItem.values, h]
  cases ws with
  | nil => cases hw
  | cons x xs =>
    cases hw
    exact congrArg some (byteOfBool_eq _)

/-! ## The map (R128) -/

theorem packByte_getLsbD (fs : List Bool) {i : Nat} (hi : i < 8) : (packByte fs).getLsbD i = fs[i]?.getD false := by
  induction fs generalizing i with
  | nil => exact BitVec.getLsbD_zero
  | cons b fs ih =>
    have hor : packByte (b :: fs) = byteOfBool b ||| packByte fs <<< 1 := by
      rw [packByte]
      refine BitVec.add_eq_or_of_and_eq_zero _ _ (BitVec.eq_of_getLsbD_eq fun j hj => ?_)
      cases b <;> cases j <;> simp [byteOfBool]
    rw [hor, BitVec.getLsbD_or, BitVec.getLsbD_shiftLeft]
    cases i with
    | zero => cases b <;> rfl
    | succ i =>
      have hself : (byteOfBool b).getLsbD (i + 1) = false := by cases b <;> simp [byteOfBool]
      rw [hself, Nat.add_sub_cancel, ih (Nat.lt_of_succ_lt hi)]
      simp [hi]

theorem packFlags_length (n : Nat) (fs : List Bool) : (packFlags n fs).length = n := by
  induction n generalizing fs with
  | zero => rfl
  | succ n ih => exact congrArg (· + 1) (ih (fs.drop 8))

theorem packFlags_getElem? {n i : Nat} (hi : i < n) (fs : List Bool) :
    (packFlags n fs)[i]? = some (packByte ((fs.drop (8 * i)).take 8)) := by
  induction n generalizing i fs with
  | zero => cases hi
  | succ n ih =>
    cases i with
    | zero => rfl
    | succ i =>
      rw [packFlags, List.getElem?_cons_succ, ih (Nat.lt_of_succ_lt_succ hi), List.drop_drop, Nat.mul_succ, Nat.add_comm 8]

/-- The flag of an element is its bit of its byte of the map, and a bit of no element is 0. -/
theorem packFlags_bit {n e : Nat} (he : e < 8 * n) (fs : List Bool) :
    ∃ x, (packFlags n fs)[e / 8]? = some x ∧ x.getLsbD (e % 8) = fs[e]?.getD false := by
  have hmod : e % 8 < 8 := Nat.mod_lt _ (by decide)
  refine ⟨_, packFlags_getElem? (Nat.div_lt_of_lt_mul he) fs, ?_⟩
  rw [packByte_getLsbD _ hmod, List.getElem?_take_of_lt hmod, List.getElem?_drop, Nat.div_add_mod]

/-! ## The readout -/

theorem Bank.headerBytes_eq (b : Bank) : b.headerBytes =
    field 1 26 ++ codeIn [BankId.a, BankId.b] b.header.bank ++ field 1 b.header.forcedPresent.toNat
      ++ field 1 b.header.period.isSome.toNat ++ field 2 b.header.generation.toNat ++ field 2 b.header.seq.toNat
      ++ field 4 b.header.time.toNat ++ field 4 (b.header.period.getD 0).toNat ++ field 1 b.header.missed
      ++ field 2 b.header.itemCount ++ field 2 b.header.elementCount ++ field 2 (layoutBytes b.layout)
      ++ field 1 ((b.header.elementCount + 7) / 8) ++ field 2 (26 + layoutBytes b.layout) := by
  rw [Bank.headerBytes, valuesLength_eq, mapSize, codeIn_banks]
  simp only [field_one_bool, field_two, field_four]
  simp only [field_one, field_two_ofNat]
  rfl

/-- The words of an item among those of the bank. -/
theorem itemWords_getElem? {b : Bank} {first count j : Nat} (hj : j < count) (hle : first + count ≤ b.header.elementCount)
    (hn : b.header.elementCount ≤ b.words.length) : ∃ w, b.words[first + j]? = some w
      ∧ (((b.words.take b.header.elementCount).drop first).take count)[j]? = some w := by
  refine ⟨_, List.getElem?_eq_getElem (by omega), ?_⟩
  rw [List.getElem?_take_of_lt hj, List.getElem?_drop, List.getElem?_take_of_lt (by omega), List.getElem?_eq_getElem]

/-- A byte of an item's values is that byte of the values part. -/
theorem getElem?_of_drop_eq {v xs rest : List Byte} {place j : Nat} {x : Byte} (h : v.drop place = xs ++ rest)
    (hx : xs[j]? = some x) : v[place + j]? = some x := by
  rw [← List.getElem?_drop, h, List.getElem?_append_left (List.getElem?_eq_some_iff.1 hx).1, hx]

/-- Settles O48: the values part and the packed flags are the values and the map. -/
theorem readoutLayout : Obligations.ReadoutLayout := by
  intro b map hwords hflags hmax hcount hbit n size values
  have hlen : (b.words.take n).length = n := List.length_take_of_le (hwords ▸ hmax)
  have hws : layoutElements b.layout ≤ (b.words.take n).length := (hcount.trans hlen.symm).le
  refine ⟨valuesPart b.layout (b.words.take n), packFlags (mapSize n) (b.flags.take n), valuesPart_length hbit hws,
    packFlags_length _ _, ?_, fun k l hl => ?_, fun e he => ?_⟩
  · rw [Bank.readout, Bank.headerBytes_eq]
    rfl
  · obtain ⟨hle, rest, hdrop⟩ := valuesPart_drop hbit hws hl
    refine ⟨fun i hi => ?_, fun hnone j hj => ?_⟩
    · have hone : l.count = 1 := hbit l (List.mem_of_getElem? hl) (by rw [hi]; nofun)
      obtain ⟨w, hw, hitem⟩ := itemWords_getElem? (by omega : 0 < l.count) (hle.trans_eq hcount) (hwords ▸ hmax)
      exact ⟨w, hw, getElem?_of_drop_eq hdrop (LayoutItem.values_of_bit hi hitem)⟩
    · obtain ⟨w, hw, hitem⟩ := itemWords_getElem? hj (hle.trans_eq hcount) (hwords ▸ hmax)
      rw [LayoutItem.values_of_word hnone] at hdrop
      obtain ⟨hhigh, hlow⟩ := flatMap_wordBytes_getElem?
        (((b.words.take n).drop (layoutElements (b.layout.take k))).take l.count) j
      rw [hitem] at hhigh hlow
      refine ⟨w, hw, getElem?_of_drop_eq hdrop hhigh, ?_⟩
      rw [Nat.add_assoc]
      exact getElem?_of_drop_eq hdrop hlow
  · rw [packFlags_length] at he
    obtain ⟨x, hx, hbits⟩ := packFlags_bit he (b.flags.take n)
    refine ⟨x, hx, hbits.trans ?_⟩
    rw [List.getElem?_take]
    split
    · cases hflag : b.flags[e]? with
      | none => simp
      | some x => cases x <;> simp [*]
    · simp [*]

end Sys2Proof.Machine
end

section
/-! The expiries as rows of their own: the scan limit (R139, R140), the lease (R67) and the continuation limit (R161). -/

namespace Sys2Proof.Machine

/-! ## The scan limit (R139, R140) -/

theorem Supervisor.due_iff (v : Supervisor) :
    v.due = true ↔ v.state = .timing ∧ ∃ e : Micros, v.elapsed = some e ∧ v.limit.toNat * 100 < e.toNat := by
  rw [Supervisor.due, Bool.and_eq_true, decide_eq_true_eq, decide_eq_true_eq]
  cases v.elapsed <;> simp

/-- What entry into STALLED changes; the action decides of the Force Table alone. -/
theorem State.enterStall_eq (s : State) : s.enterStall = { s with
    sup := { s.sup with state := .stalled }, latched := { s.latched with stall := true },
    forces := if s.sup.action = .release then [] else s.forces } := by
  rw [State.enterStall]
  split <;> rfl

theorem exec_scanLimitExpiry_of_due {s : State} (h : s.sup.due = true) :
    exec .scanLimitExpiry s = .next s.enterStall :=
  congrArg Host.Outcome.next (if_pos h)

theorem exec_scanLimitExpiry_of_not_due {s : State} (h : s.sup.due = false) : exec .scanLimitExpiry s = .next s :=
  congrArg Host.Outcome.next (if_neg (Bool.eq_false_iff.1 h))

/-! ## The lease and the continuation limit (R67, R161) -/

theorem State.leaseDue_iff (s : State) : s.leaseDue = true ↔ s.lease.cond = .running ∧ s.lease.remaining = 0 := by
  rw [State.leaseDue, Bool.and_eq_true, decide_eq_true_eq, decide_eq_true_eq]

theorem exec_leaseExpiry_of_due {s : State} (h : s.leaseDue = true) : exec .leaseExpiry s = .next s.expireLease :=
  congrArg Host.Outcome.next (if_pos h)

theorem exec_leaseExpiry_of_not_due {s : State} (h : s.leaseDue = false) : exec .leaseExpiry s = .next s :=
  congrArg Host.Outcome.next (if_neg (Bool.eq_false_iff.1 h))

theorem State.continuationDue_of_reached {s : State} {t : Nat} (hs : s.exch.state = .awaitContinue)
    (ht : s.exch.contTime = some t) (hle : 1000000 ≤ t) : s.continuationDue = true := by
  simp [State.continuationDue, hs, ht, hle]

theorem exec_continuationLimit_of_due {s : State} (h : s.continuationDue = true) :
    exec .continuationLimit s = .next s.endTransfer :=
  congrArg Host.Outcome.next (if_pos h)

theorem exec_continuationLimit_of_not_due {s : State} (h : s.continuationDue = false) :
    exec .continuationLimit s = .next s :=
  congrArg Host.Outcome.next (if_neg (Bool.eq_false_iff.1 h))

/-- The SENDING bank under transfer goes to the state given, and no other bank changes (R123). -/
theorem State.releaseBank_eq (s : State) (dest : BankState) : s.releaseBank dest = { s with
    bankA := if s.exch.bank = some .a ∧ s.bankA.state = .sending then { s.bankA with state := dest } else s.bankA,
    bankB := if s.exch.bank = some .b ∧ s.bankB.state = .sending then { s.bankB with state := dest } else s.bankB } := by
  unfold State.releaseBank
  cases s.exch.bank with
  | none => simp
  | some i =>
    cases i with
    | a => by_cases hs : s.bankA.state = .sending <;> simp [State.bank, State.setBank, hs]
    | b => by_cases hs : s.bankB.state = .sending <;> simp [State.bank, State.setBank, hs]

/-- A transfer that ends in AWAIT_CONTINUE leaves an idle exchange, a lease that runs, and its bank READY (R160, R161). -/
theorem State.endTransfer_of_await {s : State} (h : s.exch.state = .awaitContinue) : s.endTransfer = { s with
    exch := { Exchange.reset with faults := s.exch.faults },
    lease := { s.lease with cond := if s.lease.level = .view then .stopped else .running },
    bankA := if s.exch.bank = some .a ∧ s.bankA.state = .sending then { s.bankA with state := .ready } else s.bankA,
    bankB := if s.exch.bank = some .b ∧ s.bankB.state = .sending then { s.bankB with state := .ready } else s.bankB } := by
  rw [State.endTransfer, if_pos h, State.endExchange, State.releaseBank_eq]
  rfl

/-- Settles O22: each row by whether its expiry is due. -/
theorem expiriesTaken : Obligations.ExpiriesTaken := by
  refine fun s => ⟨fun e he => ⟨fun hs hlt => ?_, fun hle => ?_⟩, fun hs => ?_, fun hrun hzero => ?_, fun hnot => ?_,
    fun t hs ht => ⟨fun hle => ?_, fun hlt => ?_⟩, fun hs => ?_⟩
  · rw [exec_scanLimitExpiry_of_due (s.sup.due_iff.2 ⟨hs, e, he, hlt⟩), State.enterStall_eq]
  · refine exec_scanLimitExpiry_of_not_due (Supervisor.due_eq_false fun _ e' he' => ?_)
    rwa [Option.some.inj (he'.symm.trans he)]
  · exact exec_scanLimitExpiry_of_not_due (Supervisor.due_eq_false fun ht => absurd ht hs)
  · exact exec_leaseExpiry_of_due (s.leaseDue_iff.2 ⟨hrun, hzero⟩)
  · refine exec_leaseExpiry_of_not_due (State.leaseDue_eq_false fun hrun => ?_)
    exact Nat.one_le_iff_ne_zero.2 (hnot.resolve_left (not_not.2 hrun))
  · rw [exec_continuationLimit_of_due (State.continuationDue_of_reached hs ht hle), State.endTransfer_of_await hs]
  · exact exec_continuationLimit_of_not_due (State.continuationDue_eq_false fun _ => ⟨t, ht, hlt⟩)
  · exact exec_continuationLimit_of_not_due (State.continuationDue_eq_false fun ha => absurd ha hs)

end Sys2Proof.Machine
end

section
/-! A marker at the Scan Supervisor (R135 to R141): the expiry that is due, the period, and what it leaves. -/

namespace Sys2Proof.Machine

/-! ## The period (R137, R138) -/

/-- A marker records a period in TIMING and STALLED alone. -/
theorem Supervisor.periodAtMarker_eq (v : Supervisor) : v.periodAtMarker =
    if v.state = .timing ∨ v.state = .stalled then some (v.elapsed.getD 0) else none := by
  rw [Supervisor.periodAtMarker]
  cases v.state <;> rfl

/-- A period is the new minimum where it is below the one that stands or none stands, and the maximum likewise. -/
theorem Supervisor.record_eq (v : Supervisor) (p : Micros) : v.record p = { v with
    lastPeriod := some p,
    minPeriod := if v.minPeriod.all (fun m => decide (p < m)) then some p else v.minPeriod,
    maxPeriod := if v.maxPeriod.all (fun m => decide (m < p)) then some p else v.maxPeriod } := by
  have hmin : (v.record p).minPeriod = if v.minPeriod.all (fun m => decide (p < m)) then some p else v.minPeriod := by
    cases hm : v.minPeriod with
    | none => simp [Supervisor.record, hm]
    | some m => by_cases hlt : p < m <;> simp [Supervisor.record, hm, hlt]
  have hmax : (v.record p).maxPeriod = if v.maxPeriod.all (fun m => decide (m < p)) then some p else v.maxPeriod := by
    cases hm : v.maxPeriod with
    | none => simp [Supervisor.record, hm]
    | some m => by_cases hlt : m < p <;> simp [Supervisor.record, hm, hlt]
  rw [← hmin, ← hmax]
  rfl

/-! ## What a marker leaves of the supervisor (R135, R137) -/

/-- In TIMING and STALLED the period is recorded and the next one is timed from 0. -/
theorem Supervisor.takeMarker_of_timed {v : Supervisor} (h : v.state = .timing ∨ v.state = .stalled) (now : Micros) :
    v.takeMarker now = { v.record (v.elapsed.getD 0) with
      seq := v.seq + 1, lastMarker := some now, state := .timing, elapsed := some 0 } := by
  rcases h with hs | hs <;> simp [Supervisor.takeMarker, Supervisor.atMarker, Supervisor.periodAtMarker, hs,
    Supervisor.record]

/-- In the other states no period is recorded, and timing begins in WAITING_FIRST. -/
theorem Supervisor.takeMarker_of_untimed {v : Supervisor} (h : ¬ (v.state = .timing ∨ v.state = .stalled))
    (now : Micros) : v.takeMarker now = { v with
      seq := v.seq + 1, lastMarker := some now,
      state := if v.state = .inactive then .inactive else .timing,
      elapsed := if v.state = .inactive then v.elapsed else some 0 } := by
  cases hs : v.state with
  | inactive | waitingFirst => simp [Supervisor.takeMarker, Supervisor.atMarker, Supervisor.periodAtMarker, hs]
  | timing => exact absurd (.inl hs) h
  | stalled => exact absurd (.inr hs) h

/-- A stall entered just before a marker does not show in what the marker leaves of the supervisor (R141). -/
theorem Supervisor.takeMarker_stalled {v : Supervisor} (h : v.state = .timing) (now : Micros) :
    { v with state := .stalled }.takeMarker now = v.takeMarker now := by
  have hstalled : ({ v with state := .stalled } : Supervisor).state = .stalled := rfl
  rw [Supervisor.takeMarker_of_timed (.inl h), Supervisor.takeMarker_of_timed (.inr hstalled)]
  rfl

/-- Nor does it show in the period. -/
theorem Supervisor.periodAtMarker_stalled {v : Supervisor} (h : v.state = .timing) :
    { v with state := .stalled }.periodAtMarker = v.periodAtMarker := by
  simp [Supervisor.periodAtMarker_eq, h]

/-- A marker is the expiry that is due, and then the supervisor's and the Capture Unit's work (R135, log entry 11). -/
theorem State.marker_eq (s : State) : s.marker =
    { (if s.sup.due then s.enterStall else s) with sup := s.sup.takeMarker s.time }.judgeMarker
      s.sup.periodAtMarker := by
  unfold State.marker
  by_cases hdue : s.sup.due = true
  · obtain ⟨htiming, -⟩ := s.sup.due_iff.1 hdue
    rw [if_pos hdue, State.enterStall_eq]
    simp only [Supervisor.takeMarker_stalled htiming, Supervisor.periodAtMarker_stalled htiming]
  · rw [if_neg hdue]

/-- Settles O6: the expiry that is due, and then the marker by whether it is timed. -/
theorem markerOnSupervisor : Obligations.MarkerOnSupervisor := by
  rintro s due u hdue hnot timed p v rfl rfl
  have hu : (if s.sup.due then s.enterStall else s) = u := by
    split
    · rename_i h; rw [hdue (s.sup.due_iff.1 h), State.enterStall_eq]
    · rename_i h; exact (hnot fun hd => h (s.sup.due_iff.2 hd)).symm
  rw [State.marker_eq, hu, Supervisor.periodAtMarker_eq]
  by_cases htimed : s.sup.state = .timing ∨ s.sup.state = .stalled
  · have hactive : s.sup.state ≠ .inactive := fun hi => by simp [hi] at htimed
    rw [Supervisor.takeMarker_of_timed htimed, Supervisor.record_eq]
    simp [timed, htimed, hactive]
  · rw [Supervisor.takeMarker_of_untimed htimed]
    simp [timed, htimed]

end Sys2Proof.Machine
end

section
/-! SCAN CONFIG, SCAN STATS and LOG READ (R32, R142, R143, R185, R187): their checks in their order and the data they answer
with. -/

namespace Sys2Proof.Machine

/-! ## SCAN CONFIG (R142, R185) -/

theorem Supervisor.possible_iff (v : Supervisor) (ctlrun : Bool) :
    v.possible ctlrun = true ↔ ctlrun = true ∧ v.limit ≠ 0 ∧ v.marker ≠ none := by
  simp [Supervisor.possible, Option.isSome_iff_ne_none, and_assoc]

/-- The restart of the supervisor keeps the sequence, the last marker time and the statistics. -/
theorem Supervisor.configure_eq (v : Supervisor) (m : Option Addr) (limit : BitVec 16) (x : StallAction)
    (ctlrun : Bool) : v.configure m limit x ctlrun = { v with
      marker := m, limit := limit, action := x, elapsed := none,
      state := if ctlrun = true ∧ limit ≠ 0 ∧ m ≠ none then .waitingFirst else .inactive } := by
  simp only [Supervisor.configure, Supervisor.possible_iff]

/-- A marker fits where every address it may be is one of R134. -/
theorem markerFits_iff_markerAt (regions : List Region) (m : Option Addr) :
    markerFits regions m = true ↔ ∀ a, m = some a → MarkerAt regions a := by
  simp only [markerFits_iff, markerAllowed_iff]

/-- SCAN CONFIG of a configuration, on a request taken: the checks that follow FORMAT read the state it was taken from. -/
theorem doScanConfig_taken {params : List Byte} {m : Option Addr} {limit : BitVec 16} {x : StallAction}
    (h : parseScanConfig params = some (m, limit, x)) (s : State) :
    doScanConfig params (s.takeRequest 0x40) =
      let u := s.takeRequest 0x40
      if s.lease.level ≠ .service then u.answer .level []
      else if !markerFits s.regions m then u.answer .conflict []
      else { u with sup := s.sup.configure m limit x s.ctlrun }.answer .ok [] := by
  simp only [doScanConfig, h, State.takeRequest_level, State.takeRequest_regions, State.takeRequest_sup,
    State.takeRequest_ctlrun]

theorem doScanConfig_of_format {params : List Byte} (h : parseScanConfig params = none) (u : State) :
    doScanConfig params u = u.answer .format [] := by
  rw [doScanConfig, h]

/-- Settles O49: a payload is the layout of one configuration or of none, and the checks of one in their order. -/
theorem scanConfigured : Obligations.ScanConfigured := by
  rintro s c params hreq u rfl
  refine ⟨fun m limit x hlayout => ?_, fun hnone => ?_⟩
  · have hd := doScanConfig_taken ((parseScanConfig_some params m limit x).2 hlayout) s
    have hfits := markerFits_iff_markerAt s.regions m
    refine ⟨fun hlevel => State.onRequest_replies rfl hreq (hd.trans (if_pos hlevel)) rfl rfl,
      fun hlevel => ⟨fun ⟨a, ha, hout⟩ => ?_, fun hin => ?_⟩⟩
    · have hmisfit : markerFits s.regions m = false := Bool.eq_false_iff.2 fun hf => hout (hfits.1 hf a ha)
      refine State.onRequest_replies rfl hreq (hd.trans ?_) rfl rfl
      rw [if_neg (not_not.2 hlevel), hmisfit]
      rfl
    · refine State.onRequest_replies rfl hreq (hd.trans ?_) rfl rfl
      rw [if_neg (not_not.2 hlevel), hfits.2 hin, Supervisor.configure_eq]
      rfl
  · have hp : parseScanConfig params = none := Option.eq_none_iff_forall_ne_some.2 fun ⟨m, limit, x⟩ hp =>
      hnone m limit x ((parseScanConfig_some params m limit x).1 hp)
    exact State.onRequest_replies rfl hreq (doScanConfig_of_format hp _) rfl rfl

/-! ## SCAN STATS (R143, R194, R195) -/

/-- The presence bits in the order of R195. -/
theorem Supervisor.presence_eq (v : Supervisor) : [v.presence] =
    field 1 (v.lastMarker.isSome.toNat + 2 * v.lastPeriod.isSome.toNat + 4 * v.minPeriod.isSome.toNat
      + 8 * v.maxPeriod.isSome.toNat + 16 * v.marker.isSome.toNat) := by
  unfold Supervisor.presence
  generalize v.lastMarker.isSome = b0, v.lastPeriod.isSome = b1, v.minPeriod.isSome = b2, v.maxPeriod.isSome = b3,
    v.marker.isSome = b4
  revert b0 b1 b2 b3 b4
  decide

/-- The values as they stand in the layout of R194. -/
theorem Supervisor.statsData_eq (v : Supervisor) : v.statsData =
    codeIn supStates v.state
      ++ field 1 (v.lastMarker.isSome.toNat + 2 * v.lastPeriod.isSome.toNat + 4 * v.minPeriod.isSome.toNat
        + 8 * v.maxPeriod.isSome.toNat + 16 * v.marker.isSome.toNat)
      ++ field 2 v.seq.toNat ++ field 4 (v.lastMarker.getD 0).toNat ++ field 4 (v.lastPeriod.getD 0).toNat
      ++ field 4 (v.minPeriod.getD 0).toNat ++ field 4 (v.maxPeriod.getD 0).toNat ++ field 3 (v.marker.getD 0).toNat
      ++ field 2 v.limit.toNat ++ codeIn stallActions v.action := by
  rw [← Supervisor.presence_eq, codeIn_supStates, codeIn_stallActions, field_two, field_two, field_three]
  simp only [field_four]
  rfl

theorem doScanStats_of_flag {params : List Byte} {clear : Bool} (h : parseFlag params = some clear) (u : State) :
    doScanStats params u = { u with sup := { u.sup with
      minPeriod := if clear then none else u.sup.minPeriod,
      maxPeriod := if clear then none else u.sup.maxPeriod } }.answer .ok u.sup.statsData := by
  rw [doScanStats, h]
  cases clear <;> rfl

theorem doScanStats_of_format {params : List Byte} (h : parseFlag params = none) (u : State) :
    doScanStats params u = u.answer .format [] := by
  rw [doScanStats, h]

/-! ## LOG READ (R32, R187, R193) -/

theorem Lanes.code_eq (l : Lanes) : [l.code] = field 1 (l.lower.toNat + 2 * l.upper.toNat) := by
  obtain ⟨up, lo⟩ := l
  cases up <;> cases lo <;> rfl

theorem LogRecord.encode_eq (r : LogRecord) : r.encode = field 3 r.addr.toNat ++ field 2 r.data.toNat
    ++ field 1 (r.lanes.lower.toNat + 2 * r.lanes.upper.toNat) ++ field 2 r.seq.toNat ++ field 4 r.time.toNat := by
  rw [LogRecord.encode, Lanes.code_eq, field_three, field_two, field_two, field_four]

theorem GuardLog.data_eq (g : GuardLog) : g.data = field 1 g.records.length ++ field 1 g.dropped
    ++ g.records.flatMap (fun r => field 3 r.addr.toNat ++ field 2 r.data.toNat
      ++ field 1 (r.lanes.lower.toNat + 2 * r.lanes.upper.toNat) ++ field 2 r.seq.toNat ++ field 4 r.time.toNat) := by
  simp only [GuardLog.data, funext LogRecord.encode_eq, field_one]
  rfl

/-- Settles O50: SCAN STATS by its flag, and LOG READ by its parameters. -/
theorem statsAndLogRead : Obligations.StatsAndLogRead := by
  refine fun s c params => ⟨?_, ?_⟩
  · rintro hreq u rfl
    refine ⟨fun clear hclear => ?_, fun hformat => ?_⟩
    · rw [← Supervisor.statsData_eq, ← s.takeRequest_sup 0x41]
      exact State.onRequest_replies rfl hreq (doScanStats_of_flag ((parseFlag_some params clear).2 hclear) _) rfl rfl
    · refine State.onRequest_replies rfl hreq (doScanStats_of_format ?_ _) rfl rfl
      exact Option.eq_none_iff_forall_ne_some.2 fun clear hp => hformat clear ((parseFlag_some params clear).1 hp)
  · rintro u rfl
    refine ⟨fun hreq => ?_, fun hparams hreq => withoutParams_format rfl hparams hreq⟩
    rw [← GuardLog.data_eq, ← s.takeRequest_guardLog 0x58]
    exact State.onRequest_replies rfl hreq (if_pos rfl) rfl rfl

end Sys2Proof.Machine
end

section
/-! A frame at its final byte (R149, R151 to R153): its fields, its sum, its kind, and what it is by kind and node. -/

namespace Sys2Proof.Machine

/-! ## Bytes of a frame (R149, R189) -/

theorem byteSum_toNat (bytes : List Byte) : (byteSum bytes).toNat = (bytes.map BitVec.toNat).sum % 256 := by
  induction bytes with
  | nil => rfl
  | cons b rest ih =>
    rw [byteSum, BitVec.toNat_add, ih, List.map_cons, List.sum_cons, Nat.add_mod_mod]

/-- A sum of bytes with its check byte is 0 where the sum of their values is a multiple of 256. -/
theorem byteSum_add_eq_zero (bytes : List Byte) (check : Byte) :
    byteSum bytes + check = 0 ↔ ((bytes.map BitVec.toNat).sum + check.toNat) % 256 = 0 := by
  rw [← BitVec.toNat_inj, BitVec.toNat_add, byteSum_toNat, Nat.mod_add_mod]
  rfl

theorem kindOf_eq (kind : Byte) : kindOf kind =
    if kind.toNat / 16 = 1 then some .request else if kind.toNat / 16 = 2 then some .reply
    else if kind.toNat / 16 = 3 then some .part else if kind.toNat / 16 = 4 then some .cont
    else if kind.toNat / 16 = 5 then some .abort else none := by
  have hupper : (kind.extractLsb' 4 4).toNat = kind.toNat / 16 := by
    have := kind.isLt
    rw [BitVec.extractLsb'_toNat, Nat.shiftRight_eq_div_pow]
    omega
  simp only [kindOf, ← BitVec.toNat_inj, hupper]
  rfl

theorem segmentOf_eq (kind : Byte) : segmentOf kind = kind.toNat % 16 := by
  simp [segmentOf, BitVec.extractLsb'_toNat]

/-! ## The frame under assembly -/

theorem RxFrame.fields_of_chars {f : RxFrame} {node kind len : Byte} {payload : List Byte}
    (h : f.chars = node :: kind :: len :: payload) (hlen : payload.length = len.toNat) :
    f.fields = some (node, kind, payload) := by
  rw [RxFrame.fields, h]
  exact if_pos hlen

theorem State.finalByte_of_fields {s : State} {f : RxFrame} {node kind : Byte} {payload : List Byte}
    (hrx : s.rx.state = .assembling f) (hlistening : s.listening = true) (hf : f.fields = some (node, kind, payload))
    (c : RxChar) : s.finalByte c = some (s.judgeFrame f node kind payload c) := by
  simp only [State.finalByte, hrx, hf, hlistening, if_true]

/-- A character is a final byte where it ends a frame under assembly while the receiver listens. -/
theorem State.finalByte_some {s : State} {c : RxChar} {event : FrameEvent} (h : s.finalByte c = some event) :
    s.listening = true ∧ ∃ f node kind payload, s.rx.state = .assembling f
      ∧ s.judgeFrame f node kind payload c = event := by
  unfold State.finalByte at h
  split at h
  · cases h
  · rename_i f hrx
    split at h
    · cases h
    · rename_i node kind payload _
      split at h
      · exact ⟨‹_›, f, node, kind, payload, hrx, Option.some.inj h⟩
      · cases h

/-- A frame that ends as anything but a turn violation ends while the part does not hold the turn (R152). -/
theorem State.not_holdsTurn_of_finalByte {s : State} {c : RxChar} {event : FrameEvent}
    (h : s.finalByte c = some event) (hv : event ≠ .violation) (hr : s.receiverOk = true) :
    s.exch.state.holdsTurn = false := by
  obtain ⟨-, f, node, kind, payload, hrx, hj⟩ := State.finalByte_some h
  rw [State.receiverOk, hrx] at hr
  simp only [Bool.and_eq_true, Bool.or_eq_true, Bool.not_eq_true'] at hr
  refine hr.2.resolve_right fun hviolation => hv ?_
  rw [← hj, State.judgeFrame, if_pos hviolation]

/-! ## Judging (R147, R152, R153) -/

theorem State.isOwn_iff (s : State) (node : Byte) :
    s.isOwn node = true ↔ node.toNat = s.strapNode.toNat ∧ s.strapNode ≠ 15 := by
  simp [State.isOwn]

theorem State.judgeValid_eq (s : State) (node kind : Byte) (payload : List Byte) :
    s.judgeValid node kind payload =
      if kind.toNat / 16 = 0 ∨ 6 ≤ kind.toNat / 16 then .bad
      else if kind.toNat / 16 = 1 then
        (if s.isOwn node then .request payload else if node.toNat = 15 then .broadcast payload else .requestOther)
      else if kind.toNat / 16 = 2 ∨ kind.toNat / 16 = 3 then .ignored
      else if s.isOwn node ∨ node.toNat = 15 then
        (if kind.toNat / 16 = 4 then .cont (s.isOwn node) (kind.toNat % 16) else .abort (s.isOwn node))
      else .ignored := by
  rw [State.judgeValid, kindOf_eq, segmentOf_eq]
  generalize kind.toNat / 16 = k
  match k with
  | 0 | 1 | 2 | 3 | 4 | 5 => simp
  | k + 6 => simp

/-- What R151 discards apart from an unknown kind: a character with an error, or a sum that is not 0. -/
theorem judgeFrame_bad_iff (f : RxFrame) (c : RxChar) :
    (f.flagged || c.flagged || byteSum f.chars + c.data ≠ 0) = true ↔
      f.flagged = true ∨ c.flagged = true ∨ ((f.chars.map BitVec.toNat).sum + c.data.toNat) % 256 ≠ 0 := by
  simp only [Bool.or_eq_true, decide_eq_true_eq, ne_eq, byteSum_add_eq_zero, or_assoc]

/-- Settles O3: the violation first, then what is discarded, then a valid frame by kind and node. -/
theorem finalByteJudged : Obligations.FinalByteJudged := by
  intro s c f node kind len payload hrx hlistening hchars hlen sum own k
  have hown : own ↔ s.isOwn node = true := (s.isOwn_iff node).symm
  rw [State.finalByte_of_fields hrx hlistening (RxFrame.fields_of_chars hchars hlen), State.judgeFrame]
  congr 1
  by_cases hv : f.violation = true
  · rw [if_pos hv, if_pos hv]
  · rw [if_neg hv, if_neg hv]
    by_cases hbad : f.flagged = true ∨ c.flagged = true ∨ sum % 256 ≠ 0
    · rw [if_pos ((judgeFrame_bad_iff f c).2 hbad), if_pos (by tauto)]
    · rw [if_neg (mt (judgeFrame_bad_iff f c).1 hbad), State.judgeValid_eq]
      obtain ⟨hf, hc, hs⟩ := by simpa only [not_or] using hbad
      simp only [hf, hc, hs, Bool.false_eq_true, false_or, hown, Bool.decide_eq_true]
      rfl

end Sys2Proof.Machine
end

section
/-! The segments of a reply and the frames the part sends (R149, R158, R159, R189). -/

namespace Sys2Proof.Machine

/-! ## The segments (R158) -/

/-- The segment count is the length divided by 64, rounded up. -/
theorem segmentCount_eq {reply : List Byte} (h : 1 ≤ reply.length) :
    segmentCount reply = (reply.length + 63) / 64 := by
  show (if reply.length ≤ 64 then 1 else (reply.length + 63) / 64) = _
  split <;> omega

theorem segmentPayload_length (reply : List Byte) (k : Nat) :
    (segmentPayload reply k).length = min 64 (reply.length - 64 * k) := by
  rw [segmentPayload, List.length_take, List.length_drop]

/-- The first pieces joined are as much of the reply as they hold. -/
theorem flatMap_segmentPayload (reply : List Byte) (n : Nat) :
    (List.range n).flatMap (segmentPayload reply) = reply.take (64 * n) := by
  induction n with
  | zero => rfl
  | succ n ih =>
    rw [List.range_succ, List.flatMap_append, ih, List.flatMap_singleton, Nat.mul_succ, List.take_add]
    rfl

/-! ## The frames (R149, R189) -/

theorem FrameKind.toNat_kindByte (kind : FrameKind) (segment : Nat) :
    (kind.code ++ BitVec.ofNat 4 segment : Byte).toNat = kind.code.toNat * 16 + segment % 16 := by
  have hlow := (BitVec.ofNat 4 segment).isLt
  rw [BitVec.toNat_append, ← Nat.shiftLeft_add_eq_or_of_lt hlow, Nat.shiftLeft_eq, BitVec.toNat_ofNat]

/-- A frame is the start byte, node, kind, length and payload, and a check byte that makes the sum 0. -/
theorem frameBytes_eq (node : Byte) (kind : FrameKind) (segment : Nat) (payload : List Byte) :
    ∃ kindByte check : Byte, frameBytes node kind segment payload =
        0xC3 :: node :: kindByte :: BitVec.ofNat 8 payload.length :: (payload ++ [check])
      ∧ kindByte.toNat = kind.code.toNat * 16 + segment % 16
      ∧ (node.toNat + kindByte.toNat + payload.length + (payload.map BitVec.toNat).sum + check.toNat) % 256 = 0 := by
  let body := node :: (kind.code ++ BitVec.ofNat 4 segment) :: byteOf payload.length :: payload
  refine ⟨kind.code ++ BitVec.ofNat 4 segment, 0 - byteSum body, rfl, kind.toNat_kindByte segment, ?_⟩
  have hsum : byteSum body + (0 - byteSum body) = 0 := add_sub_cancel _ _
  rw [byteSum_add_eq_zero] at hsum
  simp only [body, byteOf, List.map_cons, List.sum_cons, BitVec.toNat_ofNat] at hsum ⊢
  omega

/-- What a SENDING exchange sends at a position of its reply. -/
theorem State.outgoing_of_segment {s : State} {r : List Byte} {k n : Nat} (hsend : s.exch.send = some (.segment k))
    (hreply : s.exch.reply = some r) (hcount : s.exch.segCount = some n) :
    s.outgoing = some (frameBytes (s.strapNode.setWidth 8) (if k + 1 = n then .reply else .part) (k % 16)
      (segmentPayload r k)) := by
  have hlast : s.exch.isLast k = decide (k + 1 = n) := by
    simp only [Exchange.isLast, hcount, Option.some.injEq, eq_comm]
  simp only [State.outgoing, hsend, hreply, hlast, decide_eq_true_eq, Option.getD_some]

theorem State.outgoing_of_formatReply {s : State} {code : Byte} (hsend : s.exch.send = some .formatReply)
    (hcode : s.exch.code = some code) :
    s.outgoing = some (frameBytes (s.strapNode.setWidth 8) .reply 0 [code, 0x02]) := by
  simp only [State.outgoing, hsend, hcode]
  rfl

/-- Settles O10: the pieces by their lengths, and the frames by their bytes. -/
theorem replySegments : Obligations.ReplySegments := by
  have hnode (s : State) : (s.strapNode.setWidth 8 : Byte).toNat = s.strapNode.toNat := by
    have := s.strapNode.isLt
    rw [BitVec.toNat_setWidth]; omega
  refine ⟨?_, fun s code hsend hcode => ?_⟩
  · intro s r hr n
    have hn : n = (r.length + 63) / 64 := segmentCount_eq (by omega)
    refine ⟨?_, by omega, fun k hk => ?_, ?_, ?_, fun k hk hsend hreply hcount => ?_⟩
    · rw [flatMap_segmentPayload, List.take_of_length_le (by omega)]
    · rw [segmentPayload_length]; omega
    · rw [segmentPayload_length]; omega
    · rw [segmentPayload_length]; omega
    · obtain ⟨kind, check, hbytes, hkind, hsum⟩ := frameBytes_eq (s.strapNode.setWidth 8)
        (if k + 1 = n then .reply else .part) (k % 16) (segmentPayload r k)
      refine ⟨kind, check, (State.outgoing_of_segment hsend hreply hcount).trans (congrArg some hbytes), ?_,
        hnode s ▸ hsum⟩
      rw [hkind, Nat.mod_mod]
      split <;> rfl
  · obtain ⟨kind, check, hbytes, hkind, hsum⟩ := frameBytes_eq (s.strapNode.setWidth 8) .reply 0 [code, 0x02]
    have hk : kind = 0x20 := BitVec.eq_of_toNat_eq hkind
    rw [hk, hnode] at hsum
    refine ⟨check, ?_, ?_⟩
    · rw [State.outgoing_of_formatReply hsend hcode, hbytes, hk]
      rfl
    · simp only [List.map_cons, List.map_nil, List.sum_cons, List.sum_nil, List.length_cons, List.length_nil] at hsum
      exact (congrArg (· % 256) (by simp; omega)).trans hsum

end Sys2Proof.Machine
end

section
/-! The exchange, the receiver and the completion record (R83, R150 to R154): what State.LinkOk says in each state, and the
operations of the Link Controller field by field. -/

namespace Sys2Proof.Machine

/-! ## The exchange in each state (R154, R156, R159) -/

namespace Exchange

theorem ok_iff_idle {e : Exchange} (h : e.state = .idle) :
    e.ok = true ↔ e.faults ≤ 255 ∧ e = { Exchange.reset with faults := e.faults } := by
  simp only [Exchange.ok, h, Bool.and_eq_true, decide_eq_true_eq]
  rfl

theorem ok_iff_receiving {e : Exchange} (h : e.state = .receiving) :
    e.ok = true ↔ e.faults ≤ 255 ∧ e = { Exchange.reset with state := .receiving, faults := e.faults } := by
  simp only [Exchange.ok, h, Bool.and_eq_true, decide_eq_true_eq]

theorem ok_iff_executing {e : Exchange} (h : e.state = .executing) :
    e.ok = true ↔ e.faults ≤ 255 ∧ e.code ≠ none
      ∧ e = { Exchange.reset with state := .executing, code := e.code, faults := e.faults } := by
  simp only [Exchange.ok, h, Bool.and_eq_true, decide_eq_true_eq, Option.isSome_iff_ne_none]

/-- What a SENDING exchange sends is the FORMAT reply of R159, or a segment of its reply. -/
theorem ok_iff_sending {e : Exchange} (h : e.state = .sending) :
    e.ok = true ↔ e.faults ≤ 255 ∧ e.code ≠ none ∧ e.lde = e.ltx.isSome
      ∧ (e.send = some .formatReply ∧ e.reply = none ∧ e.bank = none
        ∨ ∃ k r, e.send = some (.segment k) ∧ e.reply = some r ∧ e.segCount = some ((r.length + 63) / 64)
            ∧ e.nextIndex = some (k + 1) ∧ 2 ≤ r.length ∧ k < (r.length + 63) / 64) := by
  simp only [Exchange.ok, h, Bool.and_eq_true, decide_eq_true_eq, Option.isSome_iff_ne_none, and_assoc]
  refine and_congr_right fun _ => and_congr_right fun _ => and_congr_right fun _ => ?_
  constructor
  · intro hsend
    split at hsend
    · cases hsend
    · rename_i hitem
      rw [Bool.and_eq_true, Option.isNone_iff_eq_none, Option.isNone_iff_eq_none] at hsend
      exact .inl ⟨hitem, hsend⟩
    · rename_i k hitem
      split at hsend
      · rename_i r n hreply hcount
        simp only [Bool.and_eq_true, decide_eq_true_eq] at hsend
        obtain ⟨⟨⟨hr, rfl⟩, hk⟩, hnext⟩ := hsend
        exact .inr ⟨k, r, hitem, hreply, hcount, hnext, hr, hk⟩
      · cases hsend
  · rintro (⟨hitem, hreply, hbank⟩ | ⟨k, r, hitem, hreply, hcount, hnext, hr, hk⟩)
    · rw [hitem, hreply, hbank]; rfl
    · simp [hitem, hreply, hcount, hnext, hr, hk]

theorem ok_iff_await {e : Exchange} (h : e.state = .awaitContinue) :
    e.ok = true ↔ e.faults ≤ 255 ∧ e.code ≠ none ∧ e.lde = false ∧ e.ltx = none ∧ e.send = none
      ∧ ∃ k r t, e.reply = some r ∧ e.segCount = some ((r.length + 63) / 64) ∧ e.nextIndex = some k
          ∧ e.contTime = some t ∧ e.lastSent = some ((k - 1) % 16) ∧ 2 ≤ r.length ∧ 1 ≤ k ∧ k < (r.length + 63) / 64
          ∧ t ≤ 1000000 := by
  simp only [Exchange.ok, h, Bool.and_eq_true, decide_eq_true_eq, Option.isSome_iff_ne_none, and_assoc]
  refine and_congr_right fun _ => and_congr_right fun _ => ?_
  constructor
  · intro hawait
    split at hawait
    · rename_i r n k t hreply hcount hnext htime
      simp only [Bool.and_eq_true, decide_eq_true_eq, Bool.not_eq_true', Option.isNone_iff_eq_none] at hawait
      obtain ⟨hlde, hltx, hsend, ⟨⟨⟨⟨hr, rfl⟩, hk⟩, hlt⟩, hlast⟩, ht⟩ := hawait
      exact ⟨hlde, hltx, hsend, k, r, t, hreply, hcount, hnext, htime, hlast, hr, hk, hlt, ht⟩
    · simp at hawait
  · rintro ⟨hlde, hltx, hsend, k, r, t, hreply, hcount, hnext, htime, hlast, hr, hk, hlt, ht⟩
    simp [hlde, hltx, hsend, hreply, hcount, hnext, htime, hlast, hr, hk, hlt, ht]

end Exchange

theorem Exchange.state_cases (e : Exchange) : e.state = .idle ∨ e.state = .receiving ∨ e.state = .executing
    ∨ e.state = .sending ∨ e.state = .awaitContinue := by
  cases e.state <;> simp

/-- The fault count may take any value up to 255 (R151). -/
theorem Exchange.ok_setFaults {e : Exchange} (h : e.ok = true) {n : Nat} (hn : n ≤ 255) :
    { e with faults := n }.ok = true := by
  have hset {x : Exchange} (he : e = { x with faults := e.faults }) :
      { e with faults := n } = { x with faults := n } := by rw [he]
  rcases e.state_cases with hs | hs | hs | hs | hs
  · obtain ⟨-, he⟩ := (ok_iff_idle hs).1 h
    exact (ok_iff_idle (e := { e with faults := n }) hs).2 ⟨hn, hset he⟩
  · obtain ⟨-, he⟩ := (ok_iff_receiving hs).1 h
    exact (ok_iff_receiving (e := { e with faults := n }) hs).2 ⟨hn, hset (x := { Exchange.reset with state := .receiving }) he⟩
  · obtain ⟨-, hc, he⟩ := (ok_iff_executing hs).1 h
    exact (ok_iff_executing (e := { e with faults := n }) hs).2
      ⟨hn, hc, hset (x := { Exchange.reset with state := .executing, code := e.code }) he⟩
  · obtain ⟨-, hrest⟩ := (ok_iff_sending hs).1 h
    exact (ok_iff_sending (e := { e with faults := n }) hs).2 ⟨hn, hrest⟩
  · obtain ⟨-, hrest⟩ := (ok_iff_await hs).1 h
    exact (ok_iff_await (e := { e with faults := n }) hs).2 ⟨hn, hrest⟩

theorem countUp_le {n : Nat} (h : n ≤ 255) : countUp n ≤ 255 := by
  show (if n < 255 then n + 1 else n) ≤ 255
  split <;> omega

/-- Every state of the exchange keeps the fault count within 255. -/
theorem Exchange.faults_le {e : Exchange} (h : e.ok = true) : e.faults ≤ 255 := by
  rw [Exchange.ok, Bool.and_eq_true, decide_eq_true_eq] at h
  exact h.1

/-- No bank is under transfer while the exchange is IDLE, RECEIVING or EXECUTING (R154). -/
theorem Exchange.bank_eq_none {e : Exchange} (h : e.ok = true)
    (hs : e.state = .idle ∨ e.state = .receiving ∨ e.state = .executing) : e.bank = none := by
  rcases hs with hs | hs | hs
  · rw [((ok_iff_idle hs).1 h).2]; rfl
  · rw [((ok_iff_receiving hs).1 h).2]; rfl
  · rw [((ok_iff_executing hs).1 h).2.2]; rfl

/-! ## The receiver and the completion record (R83, R150, R152) -/

theorem State.receiverOk_iff_hunt {s : State} (h : s.rx.state = .hunt) :
    s.receiverOk = true ↔ s.exch.state ≠ .receiving := by
  rw [State.receiverOk, h]
  exact decide_eq_true_iff

theorem State.receiverOk_iff_assembling {s : State} {f : RxFrame} (h : s.rx.state = .assembling f) :
    s.receiverOk = true ↔ f.ok = true ∧ s.rx.awaitMark = false ∧ s.exch.lde = false
      ∧ (s.exch.state.holdsTurn = true → f.violation = true) := by
  rw [State.receiverOk, h]
  cases s.exch.state.holdsTurn <;> simp [and_assoc]

theorem State.recordOk_iff (s : State) :
    s.recordOk = true ↔ (s.completion ≠ none ↔ s.exch.state = .executing) ∧ (s.completion ≠ none → s.ops ≠ []) := by
  rw [State.recordOk, Bool.and_eq_true, decide_eq_true_eq]
  cases s.completion <;> simp

/-! ## The frame under assembly ends (R150, R151) -/

/-- The end of a frame: the receiver hunts, and RECEIVING returns to IDLE, which the lease follows. -/
theorem State.endFrame_eq (s : State) : s.endFrame = { s with
    rx := { s.rx with state := .hunt },
    exch := { s.exch with state := if s.exch.state = .receiving then .idle else s.exch.state },
    lease := if s.exch.state = .receiving then s.lease.follow .idle else s.lease } := by
  unfold State.endFrame
  dsimp only
  split
  · rfl
  · rfl

/-- A frame that is discarded besides counts a link fault and latches LINK_FAULT. -/
theorem State.discardFrame_eq (s : State) : s.discardFrame = { s with
    rx := { s.rx with state := .hunt },
    exch := { s.exch with
      state := if s.exch.state = .receiving then .idle else s.exch.state, faults := countUp s.exch.faults },
    lease := if s.exch.state = .receiving then s.lease.follow .idle else s.lease,
    latched := { s.latched with linkFault := true } } := by
  rw [State.discardFrame, State.endFrame_eq]
  rfl

/-! ## The exchange ends (R123, R154, R160) -/

/-- The end of an exchange: IDLE with nothing but the fault count, a lease that follows, and the bank under transfer
released. -/
theorem State.endExchange_eq (s : State) (dest : BankState) : s.endExchange dest = { s with
    exch := { Exchange.reset with faults := s.exch.faults },
    lease := s.lease.follow .idle,
    bankA := if s.exch.bank = some .a ∧ s.bankA.state = .sending then { s.bankA with state := dest } else s.bankA,
    bankB := if s.exch.bank = some .b ∧ s.bankB.state = .sending then { s.bankB with state := dest } else s.bankB } := by
  rw [State.endExchange, State.releaseBank_eq]

theorem State.endTransfer_of_not_await {s : State} (h : s.exch.state ≠ .awaitContinue) : s.endTransfer = s := if_neg h

/-- The end of a frame at an exchange that does not hold the turn, and with it of a transfer, leaves the exchange IDLE. -/
theorem State.endFrameAndTransfer_eq {s : State} (hok : s.exch.ok = true) (hturn : s.exch.state.holdsTurn = false) :
    s.endFrame.endTransfer = { s with
      rx := { s.rx with state := .hunt },
      exch := { Exchange.reset with faults := s.exch.faults },
      lease := if s.exch.state = .idle then s.lease else s.lease.follow .idle,
      bankA := if s.exch.bank = some .a ∧ s.bankA.state = .sending then { s.bankA with state := .ready } else s.bankA,
      bankB := if s.exch.bank = some .b ∧ s.bankB.state = .sending then { s.bankB with state := .ready } else s.bankB } := by
  rcases s.exch.state_cases with hs | hs | hs | hs | hs
  · have hexch : { s.exch with state := .idle } = { Exchange.reset with faults := s.exch.faults } :=
      congrArg (fun x : Exchange => { x with state := .idle }) ((Exchange.ok_iff_idle hs).1 hok).2
    rw [State.endFrame_eq, State.endTransfer_of_not_await (by simp [hs]), ← hexch]
    simp [hs, Exchange.bank_eq_none hok (.inl hs)]
  · have hexch : { s.exch with state := .idle } = { Exchange.reset with faults := s.exch.faults } :=
      congrArg (fun x : Exchange => { x with state := .idle }) ((Exchange.ok_iff_receiving hs).1 hok).2
    rw [State.endFrame_eq, State.endTransfer_of_not_await (by simp [hs]), ← hexch]
    simp [hs, Exchange.bank_eq_none hok (.inr (.inl hs))]
  · rw [hs] at hturn; cases hturn
  · rw [hs] at hturn; cases hturn
  · rw [State.endFrame_eq, State.endTransfer_of_await (by simp [hs])]
    simp [hs, Lease.follow, ExchState.holdsTurn]

end Sys2Proof.Machine
end

section
/-! The receiver's commands (R147 to R152, R165, R136): frames begin, take characters and are discarded, and the pins
SYSRSTN and CTLRUN have their edges. -/

namespace Sys2Proof.Machine

/-! ## The edges of SYSRSTN and CTLRUN (R20, R136, R147, R165) -/

/-- A rise of CTLRUN reaches the state of the supervisor alone. -/
theorem exec_ctlrunRise_of_low {s : State} (hs : s.sysrstn = true) (hc : s.ctlrun = false) :
    exec .ctlrunRise s = .next { s with
      ctlrun := true,
      sup := { s.sup with state := if s.sup.state = .inactive ∧ s.sup.possible true = true then .waitingFirst
        else s.sup.state } } := by
  show execCtlrunRise s = _
  rw [execCtlrunRise]
  by_cases h : s.sup.state = .inactive ∧ s.sup.possible true = true
  · rw [if_pos (by simp [hs, hc, h]), if_pos h]
  · rw [if_neg (by simpa [hs, hc] using h), if_neg h]

/-- Settles O21: by whether the pins form an access at the rise of SYSRSTN, and by whether supervision is possible at the rise
of CTLRUN. -/
theorem pinEdges : Obligations.PinEdges := by
  refine fun s => ⟨fun node rate space u hs hu => ?_, fun hs hc => ?_, fun hs hc => ?_⟩
  · have hrise : exec (.sysrstnRise node rate space) s = .next u.tryTake := by
      rw [hu]; exact congrArg Host.Outcome.next (if_neg (Bool.eq_false_iff.1 hs))
    have hbus : u.bus = s.bus := by rw [hu]
    refine ⟨fun hno => ?_, fun htakes => ?_⟩
    · rw [hrise, State.tryTake_of_not (.inr (.inl (hbus ▸ hno)))]
    · rw [hrise, ← hbus]
      exact congrArg Host.Outcome.next (State.moveBus_of_takes (s := u) (hbus ▸ htakes)).symm
  · show execCtlrunFall s = _
    rw [execCtlrunFall, hs, hc]; rfl
  · simp only [exec_ctlrunRise_of_low hs hc, Supervisor.possible_iff, true_and]

/-! ## Frames begin and take characters (R148, R150, R152) -/

theorem State.listening_iff (s : State) :
    s.listening = true ↔ s.sysrstn = true ∧ s.rx.awaitMark = false ∧ s.exch.lde = false := by
  simp [State.listening, and_assoc]

theorem ExchState.holdsTurn_eq (e : ExchState) : e.holdsTurn = decide (e = .executing ∨ e = .sending) := by
  cases e <;> rfl

/-- A frame that begins: the receiver assembles it, and an IDLE exchange enters RECEIVING. -/
theorem exec_frameStart_of_start {s : State} {c : RxChar} (hl : s.listening = true) (hrx : s.rx.state = .hunt)
    (hc : c.data = 0xC3) (hf : c.flagged = false) : exec (.frameStart c) s = .next { s with
      rx := { s.rx with state := .assembling ⟨[], false, s.exch.state.holdsTurn⟩ },
      exch := { s.exch with state := if s.exch.state = .idle then .receiving else s.exch.state },
      lease := if s.exch.state = .idle then s.lease.follow .receiving else s.lease } := by
  show execFrameStart c s = _
  rw [execFrameStart, if_pos (by simp [hl, hrx, hc, hf, Config.startByte])]
  split <;> rfl

theorem exec_frameStart_of_other {s : State} {c : RxChar} (h : c.data ≠ 0xC3 ∨ c.flagged = true) :
    exec (.frameStart c) s = .next s := by
  refine congrArg Host.Outcome.next (if_neg fun hstart => ?_)
  simp only [Bool.and_eq_true, decide_eq_true_eq, Bool.not_eq_true'] at hstart
  obtain ⟨⟨-, hdata⟩, hflag⟩ := hstart
  rcases h with h | h
  · exact h hdata
  · rw [hflag] at h; cases h

theorem RxFrame.fields_of_short {f : RxFrame} (h : f.chars.length ≤ 2) : f.fields = none := by
  unfold RxFrame.fields
  split
  · rename_i hchars
    rw [hchars] at h
    exact absurd h (by simp)
  · rfl

/-- A frame takes the character where it still lacks its kind, where the character is a length of at most 64, or where its
payload still lacks a byte. -/
theorem RxFrame.takes_character {f : RxFrame} {c : RxChar}
    (h : f.chars.length < 2 ∨ (f.chars.length = 2 ∧ c.data.toNat ≤ 64)
      ∨ ∃ a b n p, f.chars = a :: b :: n :: p ∧ p.length < n.toNat) :
    f.fields = none ∧ f.overlong c = false := by
  rcases h with h | ⟨h, hlen⟩ | ⟨a, b, n, p, hchars, hp⟩
  · exact ⟨RxFrame.fields_of_short h.le, by simp [RxFrame.overlong, h.ne]⟩
  · exact ⟨RxFrame.fields_of_short h.le, by simp [RxFrame.overlong, hlen]⟩
  · exact ⟨by simp [RxFrame.fields, hchars, hp.ne], by simp [RxFrame.overlong, hchars]⟩

theorem exec_frameCharacterTaken_of_taken {s : State} {c : RxChar} {f : RxFrame} (hl : s.listening = true)
    (hrx : s.rx.state = .assembling f) (hfields : f.fields = none) (hover : f.overlong c = false) :
    exec (.frameCharacterTaken c) s = .next { s with rx := { s.rx with state := .assembling (f.push c) } } := by
  show execFrameCharacterTaken c s = _
  simp [execFrameCharacterTaken, hrx, hl, hfields, hover]

/-- Settles O24. -/
theorem framesAssemble : Obligations.FramesAssemble := by
  refine fun s c hs => ⟨fun hm hlde hrx hc hf => ?_, fun _ hc => exec_frameStart_of_other hc,
    fun f hm hlde hrx hlen => ?_, rfl⟩
  · rw [exec_frameStart_of_start (s.listening_iff.2 ⟨hs, hm, hlde⟩) hrx hc hf, ExchState.holdsTurn_eq]
    rfl
  · obtain ⟨hfields, hover⟩ := RxFrame.takes_character hlen
    rw [exec_frameCharacterTaken_of_taken (s.listening_iff.2 ⟨hs, hm, hlde⟩) hrx hfields hover]
    rfl

/-! ## Frames are discarded (R151, R152) -/

/-- Settles O25: each of the four rows discards the frame. -/
theorem framesDiscarded : Obligations.FramesDiscarded := by
  intro s c f hrx t ht
  have hdiscard : s.discardFrame = t := by rw [ht, State.discardFrame_eq]; rfl
  rw [← hdiscard]
  refine ⟨fun hl hlen hover => ?_, fun hl => ?_, fun hbad => ?_, fun hviolation => ?_⟩
  · show execOverlongLength c s = _
    simp [execOverlongLength, hrx, hl, RxFrame.overlong, hlen, hover]
  · show execInterByteTimeout s = _
    simp [execInterByteTimeout, hrx, hl]
  · exact congrArg Host.Outcome.next (if_pos hbad)
  · exact congrArg Host.Outcome.next (if_pos hviolation)

end Sys2Proof.Machine
end

section
/-! The frames to this node and to others (R153, R155, R159, R160, R162, R167): the taking of a request, the ends of a transfer,
and CONTINUE. -/

namespace Sys2Proof.Machine

/-! ## The lease at a change of the turn (R65, R66) -/

/-- A renewed lease that follows EXECUTING or SENDING is filled and PAUSED, unless it is at VIEW. -/
theorem Lease.renew_follow_of_holdsTurn (l : Lease) {e : ExchState} (h : e.holdsTurn = true) :
    l.renew.follow e = if l.level = .view then { l with cond := .stopped }
      else { l with remaining := l.granted.getD 0 * 100000, cond := .paused } := by
  by_cases hl : l.level = .view <;> simp [Lease.renew, Lease.follow, hl, h]

/-- Exchange states that agree on the turn give a lease the same condition. -/
theorem Lease.follow_congr {l : Lease} {e e' : ExchState} (h : e.holdsTurn = e'.holdsTurn) : l.follow e = l.follow e' := by
  rw [Lease.follow, Lease.follow, h]

theorem Lease.follow_of_not_holdsTurn (l : Lease) {e : ExchState} (h : e.holdsTurn = false) :
    l.follow e = { l with cond := if l.level = .view then .stopped else .running } := by
  simp [Lease.follow, h]

/-- The end of a frame leaves a lease that follows the exchange state. -/
theorem State.endFrame_of_follow {s : State} (h : s.lease.follow s.exch.state = s.lease) : s.endFrame = { s with
    rx := { s.rx with state := .hunt },
    exch := { s.exch with state := if s.exch.state = .receiving then .idle else s.exch.state } } := by
  have hlease : (if s.exch.state = .receiving then s.lease.follow .idle else s.lease) = s.lease := by
    split
    · rename_i hs
      exact (Lease.follow_congr (by rw [hs]; rfl)).trans h
    · rfl
  rw [State.endFrame_eq, hlease]

/-! ## The taking of a request (R155) -/

/-- Settles O4: at an exchange that does not hold the turn, the frame and the transfer end, and EXECUTING is entered. -/
theorem requestTaken : Obligations.RequestTaken := by
  intro s c code payload hlink hreq back
  obtain ⟨hok, hreceiver, -⟩ := hlink
  rw [State.takeRequest, State.endFrameAndTransfer_eq hok (hreq.not_holdsTurn hreceiver)]
  have hfollow (b : Prop) [Decidable b] : (if b then s.lease else s.lease.follow .idle).renew.follow .executing =
      s.lease.renew.follow .executing := by
    split
    · rfl
    · by_cases hl : s.lease.level = .view <;> simp [Lease.renew, Lease.follow, hl]
  simp only [State.renewLease, State.enter, hfollow]
  rw [Lease.renew_follow_of_holdsTurn _ rfl]

/-- Settles O32: both are answered from the taking. -/
theorem unknownAndEmpty : Obligations.UnknownAndEmpty := by
  refine fun s c => ⟨fun hreq => ?_, fun code params hreq hcode => ?_⟩
  · exact ⟨_, congrArg Host.Outcome.next (if_pos hreq), State.answer_answers _ _ _ _ rfl (s.takeRequest_follow 0x00)⟩
  · have hunknown : code ∉ requestCodes := fun h => hcode (List.mem_map_of_mem (f := BitVec.toNat) h)
    refine ⟨(s.takeRequest code).answer .unknown [], ?_, State.answer_answers _ _ _ _ rfl (s.takeRequest_follow code)⟩
    show execUnknownRequest c s = _
    simp [execUnknownRequest, hreq, hunknown]

/-! ## The end of a transfer (R153, R160, R162) -/

/-- Settles O26. -/
theorem framesEndTransfer : Obligations.FramesEndTransfer := by
  intro s c hlink ready settled kept ended hkept hended hlease
  obtain ⟨hok, hreceiver, -⟩ := hlink
  have hfollow : s.lease.follow s.exch.state = s.lease := hlease.symm
  have hend {event : FrameEvent} (h : s.finalByte c = some event) (hv : event ≠ .violation) :
      s.endFrame.endTransfer = ended := by
    have hturn := State.not_holdsTurn_of_finalByte h hv hreceiver
    have hidle : s.lease.follow .idle = s.lease :=
      (Lease.follow_congr (e := .idle) hturn.symm).trans hfollow
    rw [State.endFrameAndTransfer_eq hok hturn, hended, hidle, ite_self]
  refine ⟨fun h => ?_, fun h => ?_, fun h => ?_, fun h => ?_⟩
  · rw [hkept, ← State.endFrame_of_follow hfollow]
    exact congrArg Host.Outcome.next (if_pos h)
  · rw [← hend h nofun]
    exact congrArg Host.Outcome.next (if_pos h)
  · show execAbortFrame c s = _
    simp [execAbortFrame, h, hend h nofun]
  · have hrenew : ended.renewLease = { ended with lease := s.lease.renew } := by rw [hended]; rfl
    show execAbortFrame c s = _
    simp [execAbortFrame, h, hend h nofun, hrenew]

/-! ## CONTINUE (R159, R162) -/

theorem exec_continueFrame_of_own {s : State} {c : RxChar} {segment : Nat}
    (h : s.finalByte c = some (.cont true segment)) : exec (.continueFrame c) s =
      .next (if s.exch.state = .awaitContinue then s.endFrame.renewLease.serveContinue segment
        else s.endFrame.renewLease) := by
  show execContinueFrame c s = _
  simp only [execContinueFrame, h]

theorem exec_continueFrame_of_broadcast {s : State} {c : RxChar} {segment : Nat}
    (h : s.finalByte c = some (.cont false segment)) : exec (.continueFrame c) s = .next s.endFrame := by
  show execContinueFrame c s = _
  simp only [execContinueFrame, h]

section
variable {s : State} {segment last next : Nat} (hlast : s.exch.lastSent = some last) (hnext : s.exch.nextIndex = some next)
include hlast hnext

/-- The segment number last sent asks for the same segment. -/
theorem State.serveContinue_of_same (h : segment = last) : s.serveContinue segment =
    { s with exch := { s.exch with send := some (.segment (next - 1)) } }.enter .sending := by
  simp [State.serveContinue, hlast, hnext, h]

/-- The number after it asks for the next segment. -/
theorem State.serveContinue_of_next (h : segment ≠ last) (h' : segment = (last + 1) % 16) : s.serveContinue segment =
    { s with exch := { s.exch with send := some (.segment next), nextIndex := some (next + 1) } }.enter .sending := by
  simp only [State.serveContinue, hlast, hnext, Option.getD_some, if_neg h, if_pos h']

/-- Any other number ends the transfer with the FORMAT reply. -/
theorem State.serveContinue_of_other (h : segment ≠ last) (h' : segment ≠ (last + 1) % 16) : s.serveContinue segment =
    { s.releaseBank .ready with exch := { Exchange.reset with
        faults := s.exch.faults, code := s.exch.code, send := some .formatReply } }.enter .sending := by
  simp only [State.serveContinue, hlast, hnext, Option.getD_some, if_neg h, if_neg h']

end

/-- Settles O28: in AWAIT_CONTINUE by the segment number, and elsewhere by what the frame's end leaves. -/
theorem continueServed : Obligations.ContinueServed := by
  intro s c segment last nx hlink v hv p hp
  refine ⟨fun h hs hlast hnext => ?_, fun h hs hlease => ?_, fun h hlease => ?_⟩
  · have hrenew : s.endFrame.renewLease = v := by
      rw [State.endFrame_eq, hv]
      simp [hs, State.renewLease]
    have hfollow : v.lease.follow .sending = p := by
      rw [hv, hp]
      exact Lease.renew_follow_of_holdsTurn s.lease rfl
    have hexch : v.exch = s.exch := by
      rw [hv]
      show { s.exch with state := if s.exch.state = .receiving then .idle else s.exch.state } = s.exch
      rw [if_neg (by simp [hs])]
    obtain ⟨hbankA, hbankB⟩ : v.bankA = s.bankA ∧ v.bankB = s.bankB := by rw [hv]; exact ⟨rfl, rfl⟩
    have hserve := (exec_continueFrame_of_own h).trans (congrArg Host.Outcome.next (if_pos hs))
    rw [hserve, hrenew, ← hexch, ← hfollow]
    rw [← hexch] at hlast hnext
    refine ⟨fun hsame => ?_, fun hne hnx => ?_, fun hne hnx => ?_⟩
    · rw [State.serveContinue_of_same hlast hnext hsame]
      rfl
    · rw [State.serveContinue_of_next hlast hnext hne hnx]
      rfl
    · rw [State.serveContinue_of_other hlast hnext hne hnx, State.releaseBank_eq, ← hbankA, ← hbankB]
      rfl
  · obtain ⟨-, hfollow⟩ := s.leaseOk_iff.1 hlease
    rw [exec_continueFrame_of_own h, if_neg hs, State.endFrame_of_follow hfollow, hv]
    rfl
  · obtain ⟨-, hfollow⟩ := s.leaseOk_iff.1 hlease
    rw [exec_continueFrame_of_broadcast h, State.endFrame_of_follow hfollow, hv]

end Sys2Proof.Machine
end

section
/-! The part's own frames and a break (R86, R123, R146, R148, R152, R156, R163). -/

namespace Sys2Proof.Machine

/-! ## The part's frames (R123, R146, R152, R156) -/

section
variable {s : State} (hs : s.exch.state = .sending)
include hs

theorem exec_frameTransmitStart_of_hunt (hlde : s.exch.lde = false) (hrx : s.rx.state = .hunt) :
    exec .frameTransmitStart s = .next { s with exch := { s.exch with lde := true, ltx := s.outgoing } } := by
  show execFrameTransmitStart s = _
  simp [execFrameTransmitStart, hs, hlde, hrx]

/-- A frame under assembly that is a turn violation is discarded as LDE rises. -/
theorem exec_frameTransmitStart_of_violation (hlde : s.exch.lde = false) {f : RxFrame}
    (hrx : s.rx.state = .assembling f) (hv : f.violation = true) : exec .frameTransmitStart s =
      .next { s.discardFrame with exch := { s.discardFrame.exch with lde := true, ltx := s.outgoing } } := by
  show execFrameTransmitStart s = _
  simp [execFrameTransmitStart, hs, hlde, hrx, hv]

theorem exec_frameSent_of_formatReply (hlde : s.exch.lde = true) (hsend : s.exch.send = some .formatReply) :
    exec .frameSent s = .next (s.endExchange .ready) := by
  show execFrameSent s = _
  simp [execFrameSent, hsend, hs, hlde]

theorem exec_frameSent_of_segment (hlde : s.exch.lde = true) {k n : Nat} (hsend : s.exch.send = some (.segment k))
    (hcount : s.exch.segCount = some n) : exec .frameSent s =
      .next (if k + 1 = n then s.endExchange .sent
        else { s with exch := { s.exch with
          lastSent := some (k % 16), contTime := some 0, send := none, lde := false, ltx := none } }.enter
            .awaitContinue) := by
  have hlast : s.exch.isLast k = decide (k + 1 = n) := by
    simp only [Exchange.isLast, hcount, Option.some.injEq, eq_comm]
  show execFrameSent s = _
  simp [execFrameSent, hsend, hs, hlde, hlast]

end

/-- Settles O30: the start by the receiver's state, and the end by what has been sent. -/
theorem framesTransmitted : Obligations.FramesTransmitted := by
  intro s hlink hs running
  obtain ⟨hok, hreceiver, -⟩ := hlink
  have hturn : s.exch.state.holdsTurn = true := by rw [hs]; rfl
  have hidle : s.lease.follow .idle = running := Lease.follow_of_not_holdsTurn _ rfl
  refine ⟨fun hlde hrx => exec_frameTransmitStart_of_hunt hs hlde hrx, fun f hlde hrx => ?_,
    fun k n hlde hsend hcount => ⟨fun hne => ?_, fun heq => ?_⟩, fun hlde hsend => ?_⟩
  · obtain ⟨-, -, -, hviolation⟩ := (State.receiverOk_iff_assembling hrx).1 hreceiver
    rw [exec_frameTransmitStart_of_violation hs hlde hrx (hviolation hturn), State.discardFrame_eq]
    simp [hs]
    rfl
  · rw [exec_frameSent_of_segment hs hlde hsend hcount, if_neg hne, ← hidle]
    rfl
  · rw [exec_frameSent_of_segment hs hlde hsend hcount, if_pos heq, State.endExchange_eq, hidle]
  · obtain ⟨-, -, -, ⟨-, -, hbank⟩ | ⟨k, r, hsegment, -⟩⟩ := (Exchange.ok_iff_sending hs).1 hok
    · rw [exec_frameSent_of_formatReply hs hlde hsend, State.endExchange_eq, hidle]
      simp [hbank]
    · rw [hsend] at hsegment; cases hsegment

/-! ## A break (R86, R148, R163) -/

/-- RECEIVING holds nothing that the end of an exchange would clear. -/
theorem State.enter_idle_of_receiving {s : State} (hok : s.exch.ok = true) (hs : s.exch.state = .receiving) :
    s.enter .idle = s.endExchange .ready := by
  have hexch : { s.exch with state := .idle } = { Exchange.reset with faults := s.exch.faults } :=
    congrArg (fun x : Exchange => { x with state := .idle }) ((Exchange.ok_iff_receiving hs).1 hok).2
  rw [State.endExchange_eq, State.enter, hexch, Exchange.bank_eq_none hok (.inr (.inl hs))]
  simp

/-- What a break does before the exchange ends: the frame is dropped, and the record of a PEEK or SYNC that executes is
abandoned. -/
def State.atBreak (s : State) : State :=
  if s.exch.state = .executing then { s with rx := ⟨.hunt, true⟩ }.abandonRecord else { s with rx := ⟨.hunt, true⟩ }

theorem State.atBreak_changes (s : State) :
    ∃ o c b, s.atBreak = { s with rx := ⟨.hunt, true⟩, ops := o, completion := c, arb := b } := by
  unfold State.atBreak
  split
  · exact State.abandonRecord_changes _
  · exact ⟨_, _, _, rfl⟩

section
variable {s : State} (hs : s.sysrstn = true) (hm : s.rx.awaitMark = false)
include hs hm

theorem exec_breakLine_of_idle (hidle : s.exch.state = .idle) : exec .breakLine s = .next s.atBreak := by
  show execBreakLine s = _
  simp [execBreakLine, State.atBreak, hs, hm, hidle]

theorem exec_breakLine_of_not_idle (hok : s.exch.ok = true) (hne : s.exch.state ≠ .idle) :
    exec .breakLine s = .next (s.atBreak.endExchange .ready) := by
  show execBreakLine s = _
  rw [execBreakLine, if_pos (by simp [hs, hm]), State.atBreak]
  rcases s.exch.state_cases with h | h | h | h | h
  · exact absurd h hne
  · rw [← State.enter_idle_of_receiving (by simpa [h] using hok) (by simp [h])]
    simp [h]
  · simp [h]
  · simp [h]
  · simp [h]

end

/-- An abandoned PEEK leaves its queue and the head lookup of it (R76, R86). -/
theorem State.abandonRecord_of_peek {s : State} {results : List (Option Word)} (h : s.completion = some (.peek results)) :
    s.abandonRecord = { s with completion := none }.afterLookup (settleOps s.regions (abandonPeek s.ops) none) := by
  rw [State.abandonRecord, h]
  rfl

/-- Behind the head an abandoned PEEK leaves the operations of other requests alone. -/
theorem abandonPeek_of_behind {ops : List Operation} (h : ∀ x ∈ ops, x.behind = true) :
    abandonPeek ops = ops.filter (fun x => x.origin ≠ .peek) := by
  induction ops with
  | nil => rfl
  | cons o rest ih =>
    obtain ⟨ho, hrest⟩ := List.forall_mem_cons.1 h
    obtain ⟨-, hact, -⟩ := (Operation.behind_iff o).1 ho
    by_cases hpeek : o.origin = .peek
    · rw [abandonPeek_cons_of_leaves (by simp [Operation.stays, hact, hpeek]), ih hrest,
        List.filter_cons_of_neg (by simpa using hpeek)]
    · rw [abandonPeek_cons_of_stays (by simp [Operation.stays, hpeek]), ih hrest, Operation.abandon_of_origin hpeek,
        List.filter_cons_of_pos (by simpa using hpeek)]

theorem Operation.abandon_eq (o : Operation) :
    o.abandon = { o with dropped := o.dropped || decide (o.origin = .peek) } := by
  unfold Operation.abandon
  split
  · rename_i h; simp [h]
  · rename_i h; simp [h]

/-- A head that stays keeps its place and its claim. -/
theorem State.abandonRecord_of_stays {s : State} {results : List (Option Word)}
    (h : s.completion = some (.peek results)) (hqueue : s.queueOk = true) (hpath : s.PathOk) {o : Operation}
    {rest : List Operation} (hops : s.ops = o :: rest) (hstays : o.stays = true) : s.abandonRecord = { s with
      completion := none, ops := o.abandon :: rest.filter (fun x => x.origin ≠ .peek) } := by
  obtain ⟨ho, hrest⟩ := ((State.queueOk_iff s).1 hqueue).order o rest hops
  have hcls : o.abandon.cls ≠ none := by rw [Operation.abandon_eq]; exact ho.cls_ne_none
  have hact : o.abandon.active = o.active := by rw [Operation.abandon_eq]
  have hwait : s.arb.waitQ = headWaits s.ops := by
    obtain ⟨-, -, -, hhead, -⟩ := hpath
    rw [State.headOk, Bool.and_eq_true, decide_eq_true_eq] at hhead
    exact hhead.1
  rw [State.abandonRecord_of_peek h, hops, abandonPeek_cons_of_stays hstays, abandonPeek_of_behind hrest,
    settleOps_of_looked_up hcls, State.afterLookup, headWaits, hact]
  rw [hops, headWaits] at hwait
  rw [← hwait]

/-- WAITING reads of the PEEK alone all leave the queue, and Q's claim goes with them. -/
theorem State.abandonRecord_of_waiting {s : State} {results : List (Option Word)}
    (h : s.completion = some (.peek results)) (hops : ∀ o ∈ s.ops, o.origin = .peek ∧ o.active = false) :
    s.abandonRecord = { s with completion := none, ops := [], arb := { s.arb with waitQ := false } } := by
  have hleave : s.ops.filter Operation.stays = [] := List.filter_eq_nil_iff.2 fun o ho => by
    obtain ⟨hpeek, hact⟩ := hops o ho
    simp [Operation.stays, hpeek, hact]
  rw [State.abandonRecord_of_peek h, abandonPeek, hleave]
  rfl

/-- Settles O29: the break by the exchange state, and the abandoned record by the head of the queue. -/
theorem breakEndsExchange : Obligations.BreakEndsExchange := by
  refine fun s => ⟨fun hs hm hlink u hu => ?_, fun results hr hqueue hpath => ⟨fun o rest hops ho => ?_, fun hall => ?_⟩,
    fun hr => by rw [State.abandonRecord, hr]⟩
  · have hu : s.atBreak = u := hu.symm
    obtain ⟨hok, -, -⟩ := hlink
    refine ⟨fun hidle => ?_, fun hne => ?_⟩
    · rw [exec_breakLine_of_idle hs hm hidle, hu]
    · obtain ⟨_, _, _, hchanges⟩ := s.atBreak_changes
      rw [exec_breakLine_of_not_idle hs hm hok hne, State.endExchange_eq, ← hu, hchanges]
      rfl
  · have hstays : o.stays = true := by
      rcases ho with ho | ho <;> simp [Operation.stays, ho]
    rw [State.abandonRecord_of_stays hr hqueue hpath hops hstays, Operation.abandon_eq]
  · exact State.abandonRecord_of_waiting hr hall

end Sys2Proof.Machine
end

section
/-! The Scan Supervisor in order (R133, R136, R138): what State.supervisorOk says, and what keeps it. -/

namespace Sys2Proof.Machine

/-- What holds of the Scan Supervisor at a level of CTLRUN. -/
structure Supervisor.Sound (v : Supervisor) (ctlrun : Bool) : Prop where
  elapsed : v.elapsed ≠ none ↔ v.state = .timing ∨ v.state = .stalled
  possible : v.state ≠ .inactive → v.possible ctlrun = true
  periods : v.minPeriod = none ∧ v.maxPeriod = none
    ∨ ∃ m x, v.minPeriod = some m ∧ v.maxPeriod = some x ∧ m ≤ x ∧ v.lastPeriod ≠ none

theorem State.supervisorOk_iff (s : State) : s.supervisorOk = true ↔ s.sup.Sound s.ctlrun := by
  have helapsed : s.sup.elapsed.isSome = (s.sup.state = .timing || s.sup.state = .stalled) ↔
      (s.sup.elapsed ≠ none ↔ s.sup.state = .timing ∨ s.sup.state = .stalled) := by
    rw [Bool.eq_iff_iff, Option.isSome_iff_ne_none, Bool.or_eq_true, decide_eq_true_eq, decide_eq_true_eq]
  have hpossible : (s.sup.state = .inactive || s.sup.possible s.ctlrun) = true ↔
      (s.sup.state ≠ .inactive → s.sup.possible s.ctlrun = true) := by
    rw [Bool.or_eq_true, decide_eq_true_eq, or_iff_not_imp_left]
  rw [State.supervisorOk, Bool.and_eq_true, Bool.and_eq_true, decide_eq_true_eq, helapsed, hpossible]
  constructor
  · rintro ⟨⟨he, hp⟩, hperiods⟩
    refine ⟨he, hp, ?_⟩
    split at hperiods
    · exact .inl ⟨‹_›, ‹_›⟩
    · rename_i m x hm hx
      rw [Bool.and_eq_true, decide_eq_true_eq, Option.isSome_iff_ne_none] at hperiods
      exact .inr ⟨m, x, hm, hx, hperiods⟩
    · cases hperiods
  · rintro ⟨he, hp, hperiods⟩
    refine ⟨⟨he, hp⟩, ?_⟩
    rcases hperiods with ⟨hm, hx⟩ | ⟨m, x, hm, hx, hle, hlast⟩
    · rw [hm, hx]
    · simp [hm, hx, hle, Option.isSome_iff_ne_none, hlast]

namespace Supervisor.Sound

variable {v : Supervisor} {ctlrun : Bool} (h : v.Sound ctlrun)
include h

/-- STALLED is entered from TIMING (R139). -/
theorem stall (ht : v.state = .timing) : { v with state := .stalled }.Sound ctlrun :=
  ⟨iff_of_true (h.elapsed.2 (.inl ht)) (.inr rfl), fun _ => h.possible (by rw [ht]; nofun), h.periods⟩

/-- A period is recorded within the new minimum and maximum (R138). -/
theorem record_periods (p : Micros) : (v.record p).minPeriod = none ∧ (v.record p).maxPeriod = none
    ∨ ∃ m x, (v.record p).minPeriod = some m ∧ (v.record p).maxPeriod = some x ∧ m ≤ x
      ∧ (v.record p).lastPeriod ≠ none := by
  right
  rcases h.periods with ⟨hm, hx⟩ | ⟨m, x, hm, hx, hle, -⟩
  · exact ⟨p, p, by simp [Supervisor.record, hm], by simp [Supervisor.record, hx], BitVec.le_refl p, nofun⟩
  · refine ⟨if p < m then p else m, if x < p then p else x, by simp [Supervisor.record, hm],
      by simp [Supervisor.record, hx], ?_, nofun⟩
    split_ifs <;> bv_omega

/-- A marker times anew from 0, except in INACTIVE (R137). -/
theorem takeMarker (now : Micros) : (v.takeMarker now).Sound ctlrun := by
  by_cases htimed : v.state = .timing ∨ v.state = .stalled
  · rw [Supervisor.takeMarker_of_timed htimed]
    refine ⟨iff_of_true nofun (.inl rfl), fun _ => ?_, h.record_periods _⟩
    exact h.possible fun hi => by simp [hi] at htimed
  · rw [Supervisor.takeMarker_of_untimed htimed]
    by_cases hi : v.state = .inactive
    · simp only [hi, if_true]
      refine ⟨?_, fun hne => absurd rfl hne, h.periods⟩
      rw [h.elapsed, hi]
    · simp only [if_neg hi]
      exact ⟨iff_of_true nofun (.inl rfl), fun _ => h.possible hi, h.periods⟩

/-- A SCAN CONFIG restarts the supervisor with the elapsed time absent (R142). -/
theorem configure (m : Option Addr) (limit : BitVec 16) (x : StallAction) : (v.configure m limit x ctlrun).Sound ctlrun := by
  rw [Supervisor.configure_eq]
  refine ⟨iff_of_false (fun hn => hn rfl) ?_, fun hne => ?_, h.periods⟩
  · dsimp only; split <;> simp
  · rw [Supervisor.possible_iff]
    dsimp only at hne ⊢
    by_contra hno
    rw [if_neg hno] at hne
    exact hne rfl

/-- The minimum and the maximum are cleared together (R143). -/
theorem clear : { v with minPeriod := none, maxPeriod := none }.Sound ctlrun :=
  ⟨h.elapsed, h.possible, .inl ⟨rfl, rfl⟩⟩

theorem countMicro : { v with elapsed := v.elapsed.map countElapsed }.Sound ctlrun :=
  ⟨by simpa using h.elapsed, h.possible, h.periods⟩

/-- At a low CTLRUN the supervisor is INACTIVE (R136). -/
theorem inactive_of_low (hc : ctlrun = false) : v.state = .inactive := by
  by_contra hne
  have hp := h.possible hne
  rw [Supervisor.possible_iff, hc] at hp
  obtain ⟨hc, -⟩ := hp
  cases hc

/-- A rise of CTLRUN makes an INACTIVE supervisor WAITING_FIRST where supervision is possible (R136). -/
theorem ctlrunRise (hc : ctlrun = false) :
    ({ v with state := if v.state = .inactive ∧ v.possible true = true then .waitingFirst
      else v.state } : Supervisor).Sound true := by
  have hinactive := h.inactive_of_low hc
  have helapsed : v.elapsed = none := not_not.1 (mt h.elapsed.1 (by simp [hinactive]))
  refine ⟨iff_of_false (fun hn => hn helapsed) ?_, fun hne => ?_, h.periods⟩
  · dsimp only; split <;> simp [hinactive]
  · by_cases hp : v.possible true = true
    · exact hp
    · exact absurd (by simp [hp, hinactive]) hne

/-- A fall of CTLRUN makes the supervisor INACTIVE with the elapsed time absent (R136). -/
theorem ctlrunFall : { v with state := .inactive, elapsed := none }.Sound false :=
  ⟨by simp, fun hne => absurd rfl hne, h.periods⟩

end Supervisor.Sound

end Sys2Proof.Machine
end

section
/-! What leaves the link as it is, and what the shared operations leave of it: the relations a step keeps of the link and of
the Scan Supervisor, and the operations that reach neither or the supervisor alone. -/

namespace Sys2Proof.Machine

/-! ## The parts of the state they speak of -/

/-- SYSRSTN, the receiver, the exchange and the completion record. -/
structure LinkSide where
  sysrstn : Bool
  rx : Receiver
  exch : Exchange
  completion : Option Completion

def State.linkSide (s : State) : LinkSide := ⟨s.sysrstn, s.rx, s.exch, s.completion⟩

/-- The Scan Supervisor and CTLRUN. -/
structure SupervisorSide where
  sup : Supervisor
  ctlrun : Bool

def State.supervisorSide (s : State) : SupervisorSide := ⟨s.sup, s.ctlrun⟩

theorem State.supervisorOk_congr {s t : State} (h : t.supervisorSide = s.supervisorSide) (hs : s.supervisorOk = true) :
    t.supervisorOk = true := by
  obtain ⟨hsup, hctlrun⟩ := SupervisorSide.mk.injEq .. |>.mp h
  rw [State.supervisorOk_iff] at hs ⊢
  rw [hsup, hctlrun]
  exact hs

/-- What holds of the link speaks of the queue only where a record waits for it. -/
theorem State.linkOk_congr {s t : State} (h : t.linkSide = s.linkSide) (hops : s.ops ≠ [] → t.ops ≠ [])
    (hs : s.LinkOk) : t.LinkOk := by
  obtain ⟨-, hrx, hexch, hrecord⟩ := LinkSide.mk.injEq .. |>.mp h
  obtain ⟨hok, hreceiver, hrec⟩ := hs
  refine ⟨hexch ▸ hok, ?_, ?_⟩
  · rw [State.receiverOk, hrx, hexch]
    exact hreceiver
  · rw [State.recordOk_iff] at hrec ⊢
    rw [hrecord, hexch]
    exact ⟨hrec.1, fun hr => hops (hrec.2 hr)⟩

/-! ## What a change keeps of them -/

/-- A change keeps SYSRSTN, and what holds of the link and of the supervisor, each by itself. -/
structure State.KeepsLink (s t : State) : Prop where
  sysrstn : t.sysrstn = s.sysrstn
  link : s.LinkOk → t.LinkOk
  supervisor : s.supervisorOk = true → t.supervisorOk = true

/-- A change reaches neither the link nor the supervisor, and empties no queue. -/
structure State.Beside (s t : State) : Prop where
  link : t.linkSide = s.linkSide
  supervisor : t.supervisorSide = s.supervisorSide
  queue : s.ops ≠ [] → t.ops ≠ []

namespace State.KeepsLink

theorem refl (s : State) : s.KeepsLink s := ⟨rfl, id, id⟩

theorem trans {s t u : State} (h : s.KeepsLink t) (h' : t.KeepsLink u) : s.KeepsLink u :=
  ⟨h'.sysrstn.trans h.sysrstn, h'.link ∘ h.link, h'.supervisor ∘ h.supervisor⟩

/-- A change made under a condition alone. -/
theorem ite {s t : State} (c : Prop) [Decidable c] (h : s.KeepsLink t) : s.KeepsLink (if c then t else s) := by
  split
  · exact h
  · exact refl s

/-- A change of the link that keeps it in order. -/
theorem of_link {s t : State} (h : s.LinkOk → t.LinkOk) (hs : t.sysrstn = s.sysrstn)
    (hv : t.supervisorSide = s.supervisorSide) : s.KeepsLink t :=
  ⟨hs, h, State.supervisorOk_congr hv⟩

/-- A change of the supervisor that keeps it in order. -/
theorem of_supervisor {s t : State} (h : s.supervisorOk = true → t.supervisorOk = true) (hl : t.linkSide = s.linkSide)
    (ho : t.ops = s.ops) : s.KeepsLink t :=
  ⟨congrArg LinkSide.sysrstn hl, State.linkOk_congr hl fun hne => ho ▸ hne, h⟩

end State.KeepsLink

namespace State.Beside

theorem of_eq {s t : State} (hl : t.linkSide = s.linkSide) (hv : t.supervisorSide = s.supervisorSide)
    (ho : t.ops = s.ops) : s.Beside t := ⟨hl, hv, fun h => ho ▸ h⟩

theorem refl (s : State) : s.Beside s := .of_eq rfl rfl rfl

theorem trans {s t u : State} (h : s.Beside t) (h' : t.Beside u) : s.Beside u :=
  ⟨h'.link.trans h.link, h'.supervisor.trans h.supervisor, h'.queue ∘ h.queue⟩

/-- A change made under a condition alone. -/
theorem ite {s t : State} (c : Prop) [Decidable c] (h : s.Beside t) : s.Beside (if c then t else s) := by
  split
  · exact h
  · exact refl s

theorem keeps {s t : State} (h : s.Beside t) : s.KeepsLink t :=
  .of_link (State.linkOk_congr h.link h.queue) (congrArg LinkSide.sysrstn h.link) h.supervisor

end State.Beside

open State (Beside KeepsLink)

/-! ## The arbiter and the Controller Port -/

theorem State.decideGrant_beside (s : State) : s.Beside s.decideGrant := by
  refine ⟨?_, ?_, State.decideGrant_ops_ne_nil⟩
  all_goals obtain ⟨_, _, _, h⟩ := s.decideGrant_changes; rw [h]; rfl

theorem State.claimArrives_beside (s : State) (before : Arbiter) : s.Beside (s.claimArrives before) :=
  .ite _ s.decideGrant_beside

theorem State.takeAtArbiter_beside (s : State) (claims : Bool) : s.Beside (s.takeAtArbiter claims) := by
  unfold State.takeAtArbiter
  dsimp only
  refine Beside.trans (t := { s with arb := { s.arb with waitC := s.arb.waitC || claims, reservation := none } })
    (.of_eq rfl rfl rfl) ?_
  split
  · exact State.decideGrant_beside _
  · exact .ite _ (State.claimArrives_beside _ _)

theorem State.takeAccess_beside (s : State) : s.Beside s.takeAccess := by
  unfold State.takeAccess
  dsimp only
  split
  · exact Beside.trans (t := { s with port := .active (accessOf s.regions s.bus) }) (.of_eq rfl rfl rfl)
      (State.takeAtArbiter_beside _ true)
  · refine (s.takeAtArbiter_beside false).trans ?_
    split
    · split
      · exact .of_eq rfl rfl rfl
      · exact .of_eq rfl rfl rfl
    · exact .of_eq rfl rfl rfl

theorem State.tryTake_beside (s : State) : s.Beside s.tryTake := .ite _ s.takeAccess_beside

theorem State.moveBus_beside (s : State) (p : BusPins) : s.Beside (s.moveBus p) := by
  unfold State.moveBus
  split
  · exact Beside.trans (t := { s with bus := p }) (.of_eq rfl rfl rfl) (State.tryTake_beside _)
  · exact .of_eq rfl rfl rfl

theorem State.completeAccess_beside (s : State) (word : Option Word) : s.Beside (s.completeAccess word) := by
  unfold State.completeAccess
  split
  · split
    · exact Beside.trans (t := { s with port := .idle }) (.of_eq rfl rfl rfl) (State.tryTake_beside _)
    · exact .of_eq rfl rfl rfl
  · exact .refl s

/-- The end of a controller access (R2, R17). -/
theorem State.endAccess_beside (s : State) (word : Option Word) :
    s.Beside (s.endGrant.afterControllerGrant.completeAccess word) := by
  have hafter (u : State) : u.Beside u.afterControllerGrant := by
    unfold State.afterControllerGrant
    split
    · exact u.decideGrant_beside
    · exact .of_eq rfl rfl rfl
  have hend : s.Beside s.endGrant := .of_eq rfl rfl rfl
  exact (hend.trans (hafter _)).trans (State.completeAccess_beside _ word)

theorem State.capture_beside (s : State) (a : Addr) (w : Word) : s.Beside (s.capture a w) := by
  obtain ⟨_, _, _, _, _, h⟩ := s.capture_changes a w; rw [h]; exact .of_eq rfl rfl rfl

/-! ## The Scan Supervisor -/

/-- An expiry of the scan limit that is due (R139). -/
theorem State.stall_keepsLink (s : State) : s.KeepsLink (if s.sup.due then s.enterStall else s) := by
  split
  · rename_i hdue
    obtain ⟨ht, -⟩ := s.sup.due_iff.1 hdue
    rw [State.enterStall_eq]
    refine .of_supervisor (fun h => ?_) rfl rfl
    rw [State.supervisorOk_iff] at h ⊢
    exact h.stall ht
  · exact .refl s

theorem State.judgeMarker_beside (s : State) (period : Option Micros) : s.Beside (s.judgeMarker period) := by
  obtain ⟨_, _, _, _, _, _, _, h⟩ := s.judgeMarker_changes period; rw [h]; exact .of_eq rfl rfl rfl

/-- A marker reaches the supervisor and the Capture Unit (R135). -/
theorem State.markerCheck_keepsLink (s : State) (a : Addr) : s.KeepsLink (s.markerCheck a) := by
  refine .ite _ ?_
  unfold State.marker
  refine s.stall_keepsLink.trans ?_
  generalize (if s.sup.due = true then s.enterStall else s) = u
  refine KeepsLink.trans (t := { u with sup := u.sup.takeMarker u.time }) (.of_supervisor (fun h => ?_) rfl rfl)
    (State.judgeMarker_beside _ _).keeps
  rw [State.supervisorOk_iff] at h ⊢
  exact h.takeMarker u.time

end Sys2Proof.Machine
end

section
/-! The link in order (R83, R150 to R154) as its own operations change it. -/

namespace Sys2Proof.Machine

open State (Beside KeepsLink)

/-! ## The record -/

/-- No record stands unless the exchange is EXECUTING (R83). -/
theorem State.LinkOk.no_record {s : State} (h : s.LinkOk) (hs : s.exch.state ≠ .executing) : s.completion = none := by
  obtain ⟨-, -, hrecord⟩ := h
  obtain ⟨hrec, -⟩ := s.recordOk_iff.1 hrecord
  exact not_not.1 (mt hrec.1 hs)

theorem State.recordOk_of_none {s : State} (hc : s.completion = none) (hs : s.exch.state ≠ .executing) :
    s.recordOk = true :=
  s.recordOk_iff.2 ⟨iff_of_false (not_not.2 hc) hs, fun hne => absurd hc hne⟩

theorem State.receiverOk_of_hunt {s : State} (hrx : s.rx.state = .hunt) (hs : s.exch.state ≠ .receiving) :
    s.receiverOk = true := (State.receiverOk_iff_hunt hrx).2 hs

theorem State.receiverOk_of_assembling {s : State} {f : RxFrame} (hrx : s.rx.state = .assembling f) (hf : f.ok = true)
    (hm : s.rx.awaitMark = false) (hlde : s.exch.lde = false) (hv : s.exch.state.holdsTurn = true → f.violation = true) :
    s.receiverOk = true := (State.receiverOk_iff_assembling hrx).2 ⟨hf, hm, hlde, hv⟩

/-! ## Frames and the end of an exchange (R150, R151, R154, R160) -/

theorem State.LinkOk.endFrame {s : State} (h : s.LinkOk) : s.endFrame.LinkOk := by
  obtain ⟨hok, hreceiver, hrecord⟩ := id h
  unfold State.endFrame
  dsimp only
  split
  · rename_i hs
    obtain ⟨hn, he⟩ := (Exchange.ok_iff_receiving hs).1 hok
    refine ⟨(Exchange.ok_iff_idle rfl).2 ⟨hn, congrArg (fun x : Exchange => { x with state := .idle }) he⟩,
      State.receiverOk_of_hunt rfl nofun, State.recordOk_of_none (h.no_record (by rw [hs]; nofun)) nofun⟩
  · rename_i hs
    exact ⟨hok, State.receiverOk_of_hunt rfl hs, hrecord⟩

theorem State.LinkOk.discardFrame {s : State} (h : s.LinkOk) : s.discardFrame.LinkOk := by
  obtain ⟨hok, hreceiver, hrecord⟩ := h.endFrame
  exact ⟨Exchange.ok_setFaults hok (countUp_le (Exchange.faults_le hok)), hreceiver, hrecord⟩

/-- An exchange that ends leaves a frame under assembly as it is. -/
theorem State.endExchange_linkOk {s : State} (hn : s.exch.faults ≤ 255) (hreceiver : s.receiverOk = true)
    (hc : s.completion = none) (dest : BankState) : (s.endExchange dest).LinkOk := by
  rw [State.endExchange_eq]
  refine ⟨(Exchange.ok_iff_idle rfl).2 ⟨hn, rfl⟩, ?_, State.recordOk_of_none hc nofun⟩
  cases hrx : s.rx.state with
  | hunt => exact State.receiverOk_of_hunt hrx nofun
  | assembling f =>
    obtain ⟨hf, hm, -, -⟩ := (State.receiverOk_iff_assembling hrx).1 hreceiver
    exact State.receiverOk_of_assembling hrx hf hm rfl nofun

theorem State.LinkOk.endExchange {s : State} (h : s.LinkOk) (hs : s.exch.state ≠ .executing) (dest : BankState) :
    (s.endExchange dest).LinkOk := by
  obtain ⟨hok, hreceiver, -⟩ := id h
  exact State.endExchange_linkOk (Exchange.faults_le hok) hreceiver (h.no_record hs) dest

theorem State.LinkOk.endTransfer {s : State} (h : s.LinkOk) : s.endTransfer.LinkOk := by
  unfold State.endTransfer
  split
  · rename_i hs
    exact h.endExchange (by rw [hs]; nofun) .ready
  · exact h

/-! ## CONTINUE and the frames sent (R156, R159) -/

/-- What a CONTINUE asks for is a segment of the reply or the FORMAT reply. -/
theorem State.LinkOk.serveContinue {s : State} (h : s.LinkOk) (hs : s.exch.state = .awaitContinue)
    (hrx : s.rx.state = .hunt) (segment : Nat) : (s.serveContinue segment).LinkOk := by
  obtain ⟨hok, -, -⟩ := id h
  obtain ⟨hn, hcode, hlde, hltx, -, k, r, t, hreply, hcount, hnext, -, hlast, hr, hk, hlt, -⟩ :=
    (Exchange.ok_iff_await hs).1 hok
  have hlines : s.exch.lde = s.exch.ltx.isSome := by rw [hlde, hltx]; rfl
  have hrecord := h.no_record (by rw [hs]; nofun)
  by_cases hsame : segment = (k - 1) % 16
  · rw [State.serveContinue_of_same hlast hnext hsame]
    refine ⟨(Exchange.ok_iff_sending rfl).2 ⟨hn, hcode, hlines, .inr ⟨k - 1, r, rfl, hreply, hcount, ?_, hr, by omega⟩⟩,
      State.receiverOk_of_hunt hrx nofun, State.recordOk_of_none hrecord nofun⟩
    rw [Nat.sub_add_cancel hk]
    exact hnext
  · by_cases hnx : segment = ((k - 1) % 16 + 1) % 16
    · rw [State.serveContinue_of_next hlast hnext hsame hnx]
      exact ⟨(Exchange.ok_iff_sending rfl).2 ⟨hn, hcode, hlines, .inr ⟨k, r, rfl, hreply, hcount, rfl, hr, hlt⟩⟩,
        State.receiverOk_of_hunt hrx nofun, State.recordOk_of_none hrecord nofun⟩
    · rw [State.serveContinue_of_other hlast hnext hsame hnx, State.releaseBank_eq]
      exact ⟨(Exchange.ok_iff_sending rfl).2 ⟨hn, hcode, rfl, .inl ⟨rfl, rfl, rfl⟩⟩,
        State.receiverOk_of_hunt hrx nofun, State.recordOk_of_none hrecord nofun⟩

/-- A SENDING exchange has a frame to send. -/
theorem State.outgoing_isSome {s : State} (hok : s.exch.ok = true) (hs : s.exch.state = .sending) :
    s.outgoing.isSome = true := by
  obtain ⟨-, -, -, ⟨hsend, -⟩ | ⟨k, r, hsend, -⟩⟩ := (Exchange.ok_iff_sending hs).1 hok
  · rw [State.outgoing, hsend]; rfl
  · rw [State.outgoing, hsend]; rfl

/-- LDE rises with the frame on LTX, while the receiver hunts. -/
theorem State.LinkOk.startFrame {s : State} (h : s.LinkOk) (hs : s.exch.state = .sending) (hrx : s.rx.state = .hunt)
    {ltx : Option (List Byte)} (hltx : ltx.isSome = true) :
    ({ s with exch := { s.exch with lde := true, ltx := ltx } } : State).LinkOk := by
  obtain ⟨hok, -, hrecord⟩ := h
  obtain ⟨hn, hcode, -, hsend⟩ := (Exchange.ok_iff_sending hs).1 hok
  exact ⟨(Exchange.ok_iff_sending (e := { s.exch with lde := true, ltx := ltx }) hs).2 ⟨hn, hcode, hltx.symm, hsend⟩,
    State.receiverOk_of_hunt hrx (hs ▸ nofun), hrecord⟩

end Sys2Proof.Machine
end

section
/-! A request from its taking to its answer (R83, R155, R156): the exchange EXECUTING, the reply that is ready, and the record
that waits for the queue. -/

namespace Sys2Proof.Machine

open State (Beside KeepsLink)

/-! ## The reply that is ready (R156) -/

/-- An answer at an EXECUTING exchange that holds no record, but may hold the bank of a readout. -/
theorem State.answer_linkOk {s : State} (hok : { s.exch with bank := none }.ok = true) (hs : s.exch.state = .executing)
    (hreceiver : s.receiverOk = true) (hc : s.completion = none) (st : Status) (data : List Byte) :
    (s.answer st data).LinkOk := by
  obtain ⟨hn, hcode, he⟩ := (Exchange.ok_iff_executing (e := { s.exch with bank := none }) hs).1 hok
  have hlines : s.exch.lde = s.exch.ltx.isSome := by
    rw [show s.exch.lde = false from congrArg Exchange.lde he, show s.exch.ltx = none from congrArg Exchange.ltx he]
    rfl
  refine ⟨(Exchange.ok_iff_sending rfl).2 ⟨hn, hcode, hlines, .inr ⟨0, _, rfl, rfl, ?_, rfl, ?_, ?_⟩⟩, ?_,
    State.recordOk_of_none hc nofun⟩
  · exact congrArg some (segmentCount_eq (by simp))
  · simp
  · simp only [List.length_cons]; omega
  · cases hrx : s.rx.state with
    | hunt => exact State.receiverOk_of_hunt hrx nofun
    | assembling f =>
      obtain ⟨hf, hm, hlde, hv⟩ := (State.receiverOk_iff_assembling hrx).1 hreceiver
      exact State.receiverOk_of_assembling hrx hf hm hlde fun _ => hv (by rw [hs]; rfl)

/-- No bank is under transfer at an EXECUTING exchange. -/
theorem Exchange.ok_dropBank {e : Exchange} (hok : e.ok = true) (hs : e.state = .executing) :
    { e with bank := none }.ok = true := by
  have hb := Exchange.bank_eq_none hok (.inr (.inr hs))
  rw [← hb]
  exact hok

/-- The examination of a record that stands while the exchange is EXECUTING (R83). -/
theorem State.examineRecord_linkOk {s : State} (hok : s.exch.ok = true) (hreceiver : s.receiverOk = true)
    (hrec : s.completion ≠ none ↔ s.exch.state = .executing) : s.examineRecord.LinkOk := by
  cases hc : s.completion with
  | none =>
    rw [State.examineRecord_of_no_record hc]
    exact ⟨hok, hreceiver, s.recordOk_iff.2 ⟨hrec, fun hne => absurd hc hne⟩⟩
  | some r =>
    by_cases hops : s.ops = []
    · have hs : s.exch.state = .executing := hrec.1 (by rw [hc]; nofun)
      rw [State.examineRecord_of_satisfied hops hc]
      exact State.answer_linkOk (s := { s with completion := none }) (Exchange.ok_dropBank hok hs) hs hreceiver rfl _ _
    · rw [State.examineRecord_of_ops_ne_nil hops]
      exact ⟨hok, hreceiver, s.recordOk_iff.2 ⟨hrec, fun _ => hops⟩⟩

/-! ## The queue and the record (R75, R76, R80, R83) -/

theorem handOn_eq_none {c : Option Completion} {o : Operation} {w : Word} : handOn c o w = none ↔ c = none := by
  unfold handOn
  split
  · split
    · rfl
    · exact Option.map_eq_none_iff
  · rfl
  · rfl

/-- The head lookup makes and ends no record. -/
theorem settleOps_record_eq_none (regions : List Region) (ops : List Operation) (c : Option Completion) :
    (settleOps regions ops c).2 = none ↔ c = none := by
  induction ops generalizing c with
  | nil => rfl
  | cons o rest ih =>
    unfold settleOps
    split
    · rfl
    · split
      · exact (ih _).trans handOn_eq_none
      · rfl

/-- Operations that join the queue leave a record to be examined, or none. -/
theorem State.enqueue_record (s : State) (new : List Operation) :
    ∃ u : State, s.enqueue new = u.examineRecord ∧ u.sysrstn = s.sysrstn ∧ u.rx = s.rx ∧ u.exch = s.exch
      ∧ u.supervisorSide = s.supervisorSide ∧ (u.completion = none ↔ s.completion = none) := by
  obtain ⟨_, _, _, h⟩ := ({ s with ops := s.ops ++ new } : State).settleHead.claimArrives_changes s.arb
  refine ⟨({ s with ops := s.ops ++ new } : State).settleHead.claimArrives s.arb, rfl, ?_⟩
  rw [h]
  exact ⟨rfl, rfl, rfl, rfl, settleOps_record_eq_none _ _ _⟩

/-- Without a record operations join the queue alone. -/
theorem State.enqueue_sides_of_no_record {s : State} (hc : s.completion = none) (new : List Operation) :
    (s.enqueue new).linkSide = s.linkSide ∧ (s.enqueue new).supervisorSide = s.supervisorSide := by
  obtain ⟨u, hu, hsysrstn, hrx, hexch, hsup, hrec⟩ := s.enqueue_record new
  rw [hu, State.examineRecord_of_no_record (hrec.2 hc)]
  refine ⟨?_, hsup⟩
  rw [State.linkSide, State.linkSide, hsysrstn, hrx, hexch, hrec.2 hc, hc]

/-- The head that retires may satisfy the record. -/
theorem State.retireHead_keepsLink (s : State) (w : Word) : s.KeepsLink (s.retireHead w) := by
  cases hops : s.ops with
  | nil =>
    have hkeep : s.retireHead w = s := by rw [State.retireHead, hops]
    rw [hkeep]
    exact .refl s
  | cons o rest =>
    refine .of_link (fun h => ?_) ?_ ?_
    · obtain ⟨hok, hreceiver, hrecord⟩ := h
      obtain ⟨hrec, -⟩ := s.recordOk_iff.1 hrecord
      have hnone : (settleOps s.regions rest (handOn s.completion o w)).2 = none ↔ s.completion = none :=
        (settleOps_record_eq_none _ _ _).trans handOn_eq_none
      rw [State.retireHead_eq hops]
      obtain ⟨_, _, _, hd⟩ := State.decideGrant_changes
        (s.endGrant.afterLookup (settleOps s.regions rest (handOn s.completion o w)))
      rw [hd]
      exact State.examineRecord_linkOk hok hreceiver ((not_congr hnone).trans hrec)
    · obtain ⟨_, _, _, _, _, _, h⟩ := s.retireHead_changes w
      rw [h]
    · obtain ⟨_, _, _, _, _, _, h⟩ := s.retireHead_changes w
      rw [h]
      rfl

/-! ## From the taking to the answer (R155, R156) -/

/-- What the taking of a request leaves of the link. -/
structure State.Taken (u : State) : Prop where
  exch : u.exch.ok = true
  executing : u.exch.state = .executing
  receiver : u.receiverOk = true
  record : u.completion = none

theorem State.takeRequest_taken {s : State} (hlink : s.LinkOk) {c : RxChar} {payload : List Byte}
    (h : s.Requests c payload) (code : Byte) : (s.takeRequest code).Taken := by
  obtain ⟨hok, hreceiver, -⟩ := id hlink
  have hn := Exchange.faults_le hok
  have hturn := h.not_holdsTurn hreceiver
  refine ⟨?_, rfl, ?_, ?_⟩
  · rw [requestTaken s c code payload hlink h]
    exact (Exchange.ok_iff_executing rfl).2 ⟨hn, nofun, rfl⟩
  · rw [requestTaken s c code payload hlink h]
    exact State.receiverOk_of_hunt rfl nofun
  · rw [State.takeRequest_completion]
    exact hlink.no_record fun he => by rw [he] at hturn; cases hturn

/-- A request carried out from its taking leaves the link in order, and keeps the supervisor and SYSRSTN. -/
structure State.CarriedOut (u t : State) : Prop where
  sysrstn : t.sysrstn = u.sysrstn
  link : u.Taken → t.LinkOk
  supervisor : u.supervisorOk = true → t.supervisorOk = true

namespace State.CarriedOut

/-- An answer after a change that leaves the link, and keeps the supervisor. -/
theorem answer_of {u v : State} {st : Status} {data : List Byte} (hl : v.linkSide = u.linkSide)
    (hv : u.supervisorOk = true → v.supervisorOk = true) : u.CarriedOut (v.answer st data) := by
  obtain ⟨hsysrstn, hrx, hexch, hrecord⟩ := LinkSide.mk.injEq .. |>.mp hl
  refine ⟨hsysrstn, fun h => State.answer_linkOk ?_ ?_ ?_ ?_ _ _, hv⟩
  · rw [hexch]; exact Exchange.ok_dropBank h.exch h.executing
  · rw [hexch]; exact h.executing
  · rw [State.receiverOk, hrx, hexch]; exact h.receiver
  · rw [hrecord]; exact h.record

/-- An answer after a change beside the link and the supervisor. -/
theorem answer {u v : State} {st : Status} {data : List Byte} (hl : v.linkSide = u.linkSide)
    (hv : v.supervisorSide = u.supervisorSide) : u.CarriedOut (v.answer st data) :=
  answer_of hl (State.supervisorOk_congr hv)

/-- An answer after operations that join the queue. -/
theorem enqueue_answer {u v : State} {new : List Operation} {st : Status} {data : List Byte}
    (hl : v.linkSide = u.linkSide) (hv : v.supervisorSide = u.supervisorSide) :
    u.CarriedOut ((v.enqueue new).answer st data) := by
  obtain ⟨_, _, _, _, _, _, he⟩ := v.enqueue_changes new
  have hsysrstn : (v.enqueue new).sysrstn = v.sysrstn := by rw [he]
  have hsup : (v.enqueue new).supervisorSide = v.supervisorSide := by rw [he]; rfl
  refine ⟨hsysrstn.trans (congrArg LinkSide.sysrstn hl), fun h => ?_, State.supervisorOk_congr (hsup.trans hv)⟩
  have hc : v.completion = none := (congrArg LinkSide.completion hl).trans h.record
  obtain ⟨hside, -⟩ := State.enqueue_sides_of_no_record hc new
  exact (answer (hside.trans hl) (hsup.trans hv)).link h

/-- The record of a PEEK or SYNC is examined (R83). -/
theorem examineRecord {u v : State} (hs : v.sysrstn = u.sysrstn) (hrx : v.rx = u.rx) (hexch : v.exch = u.exch)
    (hv : v.supervisorSide = u.supervisorSide) (hc : v.completion ≠ none) : u.CarriedOut v.examineRecord := by
  obtain ⟨_, _, _, he⟩ := v.examineRecord_changes
  have hsysrstn : v.examineRecord.sysrstn = v.sysrstn := by rw [he]
  have hsup : v.examineRecord.supervisorSide = v.supervisorSide := by rw [he]; rfl
  refine ⟨hsysrstn.trans hs, fun h => State.examineRecord_linkOk ?_ ?_ (iff_of_true hc ?_),
    State.supervisorOk_congr (hsup.trans hv)⟩
  · rw [hexch]; exact h.exch
  · rw [State.receiverOk, hrx, hexch]; exact h.receiver
  · rw [hexch]; exact h.executing

theorem withoutParams {carryOut : State → State} (hk : ∀ u : State, u.CarriedOut (carryOut u)) (params : List Byte)
    (u : State) : u.CarriedOut (Machine.withoutParams carryOut params u) := by
  unfold Machine.withoutParams
  split
  · exact hk u
  · exact answer rfl rfl

/-- A request that only reports. -/
theorem report {st : Status} {data : State → List Byte} (params : List Byte) (u : State) :
    u.CarriedOut (Machine.withoutParams (fun v => v.answer st (data v)) params u) :=
  withoutParams (fun _ => answer rfl rfl) params u

end State.CarriedOut

open State (CarriedOut)

/-- A request keeps the link from its taking through its carrying out. -/
theorem State.takeRequest_keepsLink {s t : State} {c : RxChar} {payload : List Byte} (hreq : s.Requests c payload)
    {code : Byte} (h : (s.takeRequest code).CarriedOut t) : s.KeepsLink t := by
  obtain ⟨hs, hl, hv⟩ := h
  have hside : (s.takeRequest code).supervisorSide = s.supervisorSide := by
    rw [State.supervisorSide, s.takeRequest_sup, s.takeRequest_ctlrun]
    rfl
  exact ⟨hs.trans (s.takeRequest_sysrstn code), fun hlink => hl (State.takeRequest_taken hlink hreq code),
    fun hsup => hv (State.supervisorOk_congr hside hsup)⟩

theorem State.onRequest_keepsLink {s t : State} {c : RxChar} {code : Byte} {carryOut : List Byte → State → State}
    (h : s.onRequest c code carryOut = .next t) (hk : ∀ params (u : State), u.CarriedOut (carryOut params u)) :
    s.KeepsLink t := by
  unfold State.onRequest at h
  split at h
  · rename_i k params hreq
    cases h
    exact .ite _ (State.takeRequest_keepsLink hreq (hk params _))
  · cases h
    exact .refl s

/-! ## The requests -/

theorem doProbe_carriedOut (params : List Byte) (u : State) : u.CarriedOut (doProbe params u) := by
  unfold doProbe
  split
  · exact .answer rfl rfl
  · exact .answer rfl rfl

theorem doLevel_carriedOut (params : List Byte) (u : State) : u.CarriedOut (doLevel params u) := by
  unfold doLevel
  split
  · exact .answer rfl rfl
  · exact .answer rfl rfl
  · exact .answer rfl rfl

theorem doPeek_carriedOut (params : List Byte) (u : State) : u.CarriedOut (doPeek params u) := by
  rcases doPeek_outcomes params u with ⟨st, he⟩ | ⟨a, n, he⟩ <;> rw [he]
  · exact .answer rfl rfl
  · obtain ⟨v, hv, hs, hrx, hexch, hsup, hrec⟩ := State.enqueue_record
      { u with completion := some (.peek (List.replicate n none)) }
      ((List.range n).map (fun i => ⟨.read i, a + BitVec.ofNat 20 i, .peek, false, none, false⟩))
    rw [State.acceptPeek, hv]
    exact .examineRecord hs hrx hexch hsup (mt hrec.1 nofun)

theorem doSync_carriedOut (u : State) : u.CarriedOut ({ u with completion := some .sync } : State).examineRecord :=
  .examineRecord rfl rfl rfl rfl nofun

theorem doPoke_carriedOut (params : List Byte) (u : State) : u.CarriedOut (doPoke params u) := by
  rcases doPoke_outcomes params u with ⟨st, he⟩ | ⟨a, ws, he⟩ <;> rw [he]
  · exact .answer rfl rfl
  · exact .enqueue_answer rfl rfl

theorem doForce_carriedOut (params : List Byte) (u : State) : u.CarriedOut (doForce params u) := by
  rcases doForce_outcomes params u with ⟨st, he⟩ | ⟨forces, ws, he⟩ <;> rw [he]
  · exact .answer rfl rfl
  · exact .enqueue_answer rfl rfl

theorem State.changeWatch_carriedOut (u : State) (new list : List WatchItem) :
    u.CarriedOut (u.changeWatch new list) := by
  rcases u.changeWatch_outcomes new list with ⟨st, he⟩ | ⟨-, w, data, he⟩ <;> rw [he]
  · exact .answer rfl rfl
  · exact .answer rfl rfl

theorem doWatchDefine_carriedOut (params : List Byte) (u : State) : u.CarriedOut (doWatchDefine params u) := by
  rcases doWatchDefine_outcomes params u with ⟨st, he⟩ | ⟨new, list, he⟩ <;> rw [he]
  · exact .answer rfl rfl
  · exact u.changeWatch_carriedOut new list

theorem doWatchAppend_carriedOut (params : List Byte) (u : State) : u.CarriedOut (doWatchAppend params u) := by
  rcases doWatchAppend_outcomes params u with ⟨st, he⟩ | ⟨new, list, he⟩ <;> rw [he]
  · exact .answer rfl rfl
  · exact u.changeWatch_carriedOut new list

theorem doWatchArm_carriedOut (params : List Byte) (u : State) : u.CarriedOut (doWatchArm params u) := by
  unfold doWatchArm
  split
  · exact .answer rfl rfl
  · split
    · exact .answer rfl rfl
    · exact .answer rfl rfl

/-- A readout is the answer that holds a bank (R122). -/
theorem doSnapRead_carriedOut (params : List Byte) (u : State) : u.CarriedOut (doSnapRead params u) := by
  cases hp : parseFlag params with
  | none => rw [doSnapRead_of_format hp]; exact .answer rfl rfl
  | some map =>
    cases hi : u.selectBank with
    | none => rw [doSnapRead_of_none hp hi]; exact .answer rfl rfl
    | some i =>
      rw [doSnapRead_of_selected hp hi]
      refine ⟨u.setBank_sysrstn i _, fun h => ?_, State.supervisorOk_congr ?_⟩
      · have hok : { (u.transferring i).exch with bank := none }.ok = true :=
          Exchange.ok_dropBank (e := u.exch) h.exch h.executing
        refine State.answer_linkOk hok h.executing ?_ ?_ _ _
        · cases i <;> exact h.receiver
        · cases i <;> exact h.record
      · cases i <;> rfl

theorem State.emptyBank_answer_carriedOut (u : State) (i : BankId) (st : Status) (data : List Byte) :
    u.CarriedOut ((u.emptyBank i).answer st data) := by
  obtain ⟨_, _, h⟩ := u.emptyBank_changes i; rw [h]; exact .answer rfl rfl

theorem State.acknowledge_carriedOut (u : State) : u.CarriedOut u.acknowledge := by
  unfold State.acknowledge
  split
  · exact u.emptyBank_answer_carriedOut .a _ _
  · split
    · exact u.emptyBank_answer_carriedOut .b _ _
    · exact .answer rfl rfl

/-- SCAN CONFIG restarts the supervisor (R142). -/
theorem doScanConfig_carriedOut (params : List Byte) (u : State) : u.CarriedOut (doScanConfig params u) := by
  unfold doScanConfig
  split
  · exact .answer rfl rfl
  · rename_i m limit x _
    split_ifs
    · exact .answer rfl rfl
    · exact .answer rfl rfl
    · refine .answer_of rfl (fun h => ?_)
      rw [State.supervisorOk_iff] at h ⊢
      exact h.configure m limit x

/-- SCAN STATS clears the statistics, or leaves them (R143). -/
theorem doScanStats_carriedOut (params : List Byte) (u : State) : u.CarriedOut (doScanStats params u) := by
  unfold doScanStats
  split
  · exact .answer rfl rfl
  · rename_i clear _
    dsimp only
    cases clear with
    | false => exact .answer rfl rfl
    | true =>
      refine .answer_of rfl (fun h => ?_)
      rw [State.supervisorOk_iff] at h ⊢
      exact h.clear

theorem doRegionSet_carriedOut (params : List Byte) (u : State) : u.CarriedOut (doRegionSet params u) := by
  rcases doRegionSet_admitted params u with ⟨st, he⟩ | ⟨n, r, -, -, -, he⟩ <;> rw [he]
  · exact .answer rfl rfl
  · exact .answer rfl rfl

theorem doAlertClear_carriedOut (params : List Byte) (u : State) : u.CarriedOut (doAlertClear params u) := by
  unfold doAlertClear
  split
  · exact .answer rfl rfl
  · exact .answer rfl rfl

theorem doAlertEnable_carriedOut (params : List Byte) (u : State) : u.CarriedOut (doAlertEnable params u) := by
  unfold doAlertEnable
  split
  · exact .answer rfl rfl
  · exact .answer rfl rfl

end Sys2Proof.Machine
end

section
/-! Every step keeps the link and the Scan Supervisor in order, and while SYSRSTN is low every block at its reset values (R19,
R20, R83, R133, R136, R138, R150 to R154). -/

namespace Sys2Proof.Machine

open State (Beside KeepsLink CarriedOut)

/-! ## The completions at memory -/

theorem execControllerReadDataReturn_keepsLink {s t : State} (h : execControllerReadDataReturn s = .next t) :
    s.KeepsLink t := by
  unfold execControllerReadDataReturn at h
  split at h <;> cases h
  · exact (s.endAccess_beside _).keeps
  · exact .refl s

theorem execReservationExpiry_keepsLink {s t : State} (h : execReservationExpiry s = .next t) : s.KeepsLink t := by
  unfold execReservationExpiry at h
  split at h <;> cases h
  · have hend : s.Beside { s with arb := { s.arb with reservation := none } } := .of_eq rfl rfl rfl
    exact (hend.trans (State.decideGrant_beside _)).keeps
  · exact .refl s

/-- A write that reaches memory leaves the link and the supervisor. -/
theorem State.setMem_beside (s : State) (m : Memory) : s.Beside { s with mem := m } := .of_eq rfl rfl rfl

theorem execControllerWriteReachesMemory_keepsLink {s t : State} (h : execControllerWriteReachesMemory s = .next t) :
    s.KeepsLink t := by
  unfold execControllerWriteReachesMemory at h
  split at h <;> cases h
  · exact ((s.setMem_beside _).keeps.trans (State.markerCheck_keepsLink _ _)).trans (State.endAccess_beside _ _).keeps
  · exact .refl s

/-- The write of a pair begins after its capture (R11, R79). -/
theorem State.captureThenWrite_keepsLink (s : State) (a : Addr) (w : Word) (g : Option Grant) (m : MemPort) :
    s.KeepsLink { s.capture a w with arb := { (s.capture a w).arb with grant := g }, mport := m } := by
  have hwrite : (s.capture a w).Beside
      { s.capture a w with arb := { (s.capture a w).arb with grant := g }, mport := m } := .of_eq rfl rfl rfl
  exact ((s.capture_beside a w).trans hwrite).keeps

theorem execCaptureReadReturn_keepsLink {s t : State} (h : execCaptureReadReturn s = .next t) : s.KeepsLink t := by
  unfold execCaptureReadReturn at h
  split at h <;> cases h
  · exact s.captureThenWrite_keepsLink _ _ _ _
  · exact .refl s

theorem execFillReadReturn_keepsLink {s t : State} (h : execFillReadReturn s = .next t) : s.KeepsLink t := by
  unfold execFillReadReturn at h
  split at h <;> cases h
  · rename_i a _ _
    refine ((s.capture_beside a (s.mem.readWord a)).trans (Beside.trans ?_ (State.decideGrant_beside _))).keeps
    exact .of_eq rfl rfl rfl
  · exact .refl s

theorem execReadOperationDataReturn_keepsLink {s t : State} (h : execReadOperationDataReturn s = .next t) :
    s.KeepsLink t := by
  unfold execReadOperationDataReturn at h
  split at h
  · split at h <;> cases h
    · exact s.retireHead_keepsLink _
    · exact .refl s
    · exact .refl s
  · cases h; exact .refl s

theorem execWriteOperationReachesMemory_keepsLink {s t : State} (h : execWriteOperationReachesMemory s = .next t) :
    s.KeepsLink t := by
  unfold execWriteOperationReachesMemory at h
  split at h
  · split at h <;> cases h
    · exact (s.setMem_beside _).keeps.trans (State.retireHead_keepsLink _ _)
    · exact .refl s
    · exact .refl s
  · cases h; exact .refl s

theorem execModifyReadComplete_keepsLink {s t : State} (h : execModifyReadComplete s = .next t) : s.KeepsLink t := by
  unfold execModifyReadComplete at h
  split at h
  · split at h <;> cases h
    · exact s.captureThenWrite_keepsLink _ _ _ _
    · exact .refl s
    · exact .refl s
  · cases h; exact .refl s

theorem execModifyWriteReachesMemory_keepsLink {s t : State} (h : execModifyWriteReachesMemory s = .next t) :
    s.KeepsLink t := by
  unfold execModifyWriteReachesMemory at h
  split at h
  · split at h <;> cases h
    · exact (s.setMem_beside _).keeps.trans (State.retireHead_keepsLink _ _)
    · exact .refl s
    · exact .refl s
  · cases h; exact .refl s

/-! ## Frames (R150 to R153) -/

theorem State.endFrame_keepsLink (s : State) : s.KeepsLink s.endFrame := by
  refine .of_link State.LinkOk.endFrame ?_ ?_
  · rw [State.endFrame_eq]
  · rw [State.endFrame_eq]; rfl

theorem State.discardFrame_keepsLink (s : State) : s.KeepsLink s.discardFrame := by
  refine .of_link State.LinkOk.discardFrame ?_ ?_
  · rw [State.discardFrame_eq]
  · rw [State.discardFrame_eq]; rfl

theorem State.endTransfer_keepsLink (s : State) : s.KeepsLink s.endTransfer := by
  obtain ⟨_, _, _, _, h⟩ := s.endTransfer_changes
  refine .of_link State.LinkOk.endTransfer ?_ ?_
  · rw [h]
  · rw [h]; rfl

/-- The end of a frame, and with it of a transfer (R150, R160). -/
theorem State.endFrameAndTransfer_keepsLink (s : State) : s.KeepsLink s.endFrame.endTransfer :=
  s.endFrame_keepsLink.trans (State.endTransfer_keepsLink _)

theorem State.actBroadcast_beside (s : State) (payload : List Byte) : s.Beside (s.actBroadcast payload) := by
  obtain ⟨_, _, h⟩ := s.actBroadcast_changes payload; rw [h]; exact .of_eq rfl rfl rfl

theorem State.renewLease_beside (s : State) : s.Beside s.renewLease := .of_eq rfl rfl rfl

/-- A frame begins while the receiver listens: LDE is low, and a frame begun while the part holds the turn is marked. -/
theorem execFrameStart_keepsLink {s t : State} {c : RxChar} (h : execFrameStart c s = .next t) : s.KeepsLink t := by
  cases h
  split
  · rename_i hstart
    simp only [Bool.and_eq_true, decide_eq_true_eq] at hstart
    obtain ⟨⟨⟨hlisten, hrx⟩, -⟩, -⟩ := hstart
    obtain ⟨-, hm, hlde⟩ := s.listening_iff.1 hlisten
    dsimp only
    split
    · rename_i hs
      refine .of_link (fun h => ?_) rfl rfl
      obtain ⟨hok, -, -⟩ := id h
      obtain ⟨hn, he⟩ := (Exchange.ok_iff_idle hs).1 hok
      exact ⟨(Exchange.ok_iff_receiving rfl).2 ⟨hn, congrArg (fun x : Exchange => { x with state := .receiving }) he⟩,
        State.receiverOk_of_assembling rfl rfl hm hlde nofun,
        State.recordOk_of_none (h.no_record (by rw [hs]; nofun)) nofun⟩
    · refine .of_link (fun ⟨hok, _, hrecord⟩ => ?_) rfl rfl
      exact ⟨hok, State.receiverOk_of_assembling rfl rfl hm hlde id, hrecord⟩
  · exact .refl s

/-- A frame that takes a length of at most 64, or a byte its payload lacks, is in order (R150, R151). -/
theorem RxFrame.ok_push {f : RxFrame} (hf : f.ok = true) {c : RxChar} (hfields : f.fields = none)
    (hover : f.overlong c = false) : (f.push c).ok = true := by
  obtain ⟨chars, flagged, violation⟩ := f
  match chars with
  | [] | [_] => rfl
  | [a, b] =>
    have hlen : c.data.toNat ≤ 64 := by simpa [RxFrame.overlong] using hover
    simpa [RxFrame.push, RxFrame.ok] using hlen
  | a :: b :: len :: payload =>
    simp [RxFrame.ok, RxFrame.push, RxFrame.fields] at hf hfields ⊢
    omega

theorem execFrameCharacterTaken_keepsLink {s t : State} {c : RxChar} (h : execFrameCharacterTaken c s = .next t) :
    s.KeepsLink t := by
  unfold execFrameCharacterTaken at h
  split at h
  · cases h
    exact .refl s
  · rename_i f hrx
    cases h
    split
    · rename_i htaken
      simp only [Bool.and_eq_true, Option.isNone_iff_eq_none, Bool.not_eq_true'] at htaken
      obtain ⟨⟨-, hfields⟩, hover⟩ := htaken
      refine .of_link (fun ⟨hok, hreceiver, hrecord⟩ => ?_) rfl rfl
      obtain ⟨hf, hm, hlde, hv⟩ := (State.receiverOk_iff_assembling hrx).1 hreceiver
      exact ⟨hok, State.receiverOk_of_assembling rfl (RxFrame.ok_push hf hfields hover) hm hlde hv, hrecord⟩
    · exact .refl s

theorem execOverlongLength_keepsLink {s t : State} {c : RxChar} (h : execOverlongLength c s = .next t) :
    s.KeepsLink t := by
  unfold execOverlongLength at h
  split at h <;> cases h
  · exact .refl s
  · exact .ite _ s.discardFrame_keepsLink

theorem execInterByteTimeout_keepsLink {s t : State} (h : execInterByteTimeout s = .next t) : s.KeepsLink t := by
  unfold execInterByteTimeout at h
  split at h <;> cases h
  · exact .refl s
  · exact .ite _ s.discardFrame_keepsLink

theorem execLrxReturnsToMark_keepsLink {s t : State} (h : execLrxReturnsToMark s = .next t) : s.KeepsLink t := by
  cases h
  refine .of_link (fun ⟨hok, hreceiver, hrecord⟩ => ⟨hok, ?_, hrecord⟩) rfl rfl
  cases hrx : s.rx.state with
  | hunt => exact State.receiverOk_of_hunt hrx ((State.receiverOk_iff_hunt hrx).1 hreceiver)
  | assembling f =>
    obtain ⟨hf, -, hlde, hv⟩ := (State.receiverOk_iff_assembling hrx).1 hreceiver
    exact State.receiverOk_of_assembling hrx hf rfl hlde hv

theorem execBroadcastRequest_keepsLink {s t : State} {c : RxChar} (h : execBroadcastRequest c s = .next t) :
    s.KeepsLink t := by
  unfold execBroadcastRequest at h
  split at h <;> cases h
  · exact s.endFrameAndTransfer_keepsLink.trans (State.actBroadcast_beside _ _).keeps
  · exact .refl s

theorem execContinueFrame_keepsLink {s t : State} {c : RxChar} (h : execContinueFrame c s = .next t) :
    s.KeepsLink t := by
  unfold execContinueFrame at h
  have hrenew : s.KeepsLink s.endFrame.renewLease := s.endFrame_keepsLink.trans (State.renewLease_beside _).keeps
  split at h <;> cases h
  · rename_i segment _
    split
    · rename_i hs
      have hawait : s.endFrame.renewLease.exch.state = .awaitContinue := by
        rw [State.endFrame_eq]
        simp [State.renewLease, hs]
      have hrx : s.endFrame.renewLease.rx.state = .hunt := by rw [State.endFrame_eq]; rfl
      refine hrenew.trans ?_
      obtain ⟨_, _, _, _, hserve⟩ := s.endFrame.renewLease.serveContinue_changes segment
      refine .of_link (fun hlink => hlink.serveContinue hawait hrx segment) ?_ ?_
      · rw [hserve]
      · rw [hserve]; rfl
    · exact hrenew
  · exact s.endFrame_keepsLink
  · exact .refl s

theorem execAbortFrame_keepsLink {s t : State} {c : RxChar} (h : execAbortFrame c s = .next t) : s.KeepsLink t := by
  unfold execAbortFrame at h
  split at h <;> cases h
  · split
    · exact s.endFrameAndTransfer_keepsLink.trans (State.renewLease_beside _).keeps
    · exact s.endFrameAndTransfer_keepsLink
  · exact .refl s

/-! ## A break and the part's own frames (R123, R156, R163) -/

theorem State.abandonRecord_completion (s : State) : s.abandonRecord.completion = none := by
  cases hc : s.completion with
  | none => rw [State.abandonRecord, hc]; exact hc
  | some r =>
    cases r with
    | sync => rw [State.abandonRecord, hc]
    | peek results =>
      rw [State.abandonRecord_of_peek hc]
      exact (settleOps_record_eq_none _ _ _).2 rfl

/-- An exchange that ends with its bank released, after a change that leaves no record. -/
theorem State.KeepsLink.endExchange {s u : State}
    (h : s.LinkOk → u.exch.faults ≤ 255 ∧ u.receiverOk = true ∧ u.completion = none) (hs : u.sysrstn = s.sysrstn)
    (hv : u.supervisorSide = s.supervisorSide) (dest : BankState) : s.KeepsLink (u.endExchange dest) := by
  refine .of_link (fun hlink => ?_) ?_ ?_
  · obtain ⟨hn, hreceiver, hc⟩ := h hlink
    exact State.endExchange_linkOk hn hreceiver hc dest
  · rw [State.endExchange_eq]; exact hs
  · rw [State.endExchange_eq]; exact hv

theorem State.endExchange_keepsLink {s : State} (hs : s.exch.state ≠ .executing) (dest : BankState) :
    s.KeepsLink (s.endExchange dest) :=
  .endExchange (fun h => have ⟨hok, hreceiver, _⟩ := h; ⟨Exchange.faults_le hok, hreceiver, h.no_record hs⟩) rfl rfl dest

/-- A PEEK or SYNC that a break interrupts ends without its record (R86). -/
theorem State.abandonRecord_endExchange_keepsLink (s : State) : s.KeepsLink (s.abandonRecord.endExchange .ready) := by
  obtain ⟨_, _, _, h⟩ := s.abandonRecord_changes
  refine .endExchange (fun ⟨hok, hreceiver, _⟩ => ⟨?_, ?_, s.abandonRecord_completion⟩) ?_ ?_ .ready
  · rw [h]
  · rw [h]; rfl
  · rw [h]; exact Exchange.faults_le hok
  · rw [h]; exact hreceiver

/-- A break drops the frame under assembly; unless the exchange is RECEIVING, that alone keeps the link. -/
theorem State.dropFrame_keepsLink {s : State} (hs : s.exch.state ≠ .receiving) :
    s.KeepsLink { s with rx := ⟨.hunt, true⟩ } :=
  .of_link (fun ⟨hok, _, hrecord⟩ => ⟨hok, State.receiverOk_of_hunt rfl hs, hrecord⟩) rfl rfl

theorem execBreakLine_keepsLink {s t : State} (h : execBreakLine s = .next t) : s.KeepsLink t := by
  cases h
  refine .ite _ ?_
  dsimp only
  split
  · rename_i hs
    exact State.dropFrame_keepsLink (hs ▸ nofun)
  · rename_i hs
    refine .of_link (fun h => ?_) rfl rfl
    obtain ⟨hok, -, -⟩ := id h
    obtain ⟨hn, he⟩ := (Exchange.ok_iff_receiving hs).1 hok
    exact ⟨(Exchange.ok_iff_idle rfl).2 ⟨hn, congrArg (fun x : Exchange => { x with state := .idle }) he⟩,
      State.receiverOk_of_hunt rfl nofun, State.recordOk_of_none (h.no_record (hs ▸ nofun)) nofun⟩
  · rename_i hs
    exact (State.dropFrame_keepsLink (hs ▸ nofun)).trans (State.abandonRecord_endExchange_keepsLink _)
  · rename_i hs
    exact (State.dropFrame_keepsLink (hs ▸ nofun)).trans (State.endExchange_keepsLink (hs ▸ nofun) .ready)
  · rename_i hs
    exact (State.dropFrame_keepsLink (hs ▸ nofun)).trans (State.endExchange_keepsLink (hs ▸ nofun) .ready)

theorem execFrameTransmitStart_keepsLink {s t : State} (h : execFrameTransmitStart s = .next t) : s.KeepsLink t := by
  cases h
  split
  · rename_i hstart
    rw [Bool.and_eq_true, decide_eq_true_eq] at hstart
    obtain ⟨hs, -⟩ := hstart
    dsimp only
    split
    · rename_i f hrx
      split
      · refine ⟨s.discardFrame_keepsLink.sysrstn, fun h => ?_, s.discardFrame_keepsLink.supervisor⟩
        have hout := State.outgoing_isSome h.1 hs
        refine h.discardFrame.startFrame ?_ ?_ hout
        · simp [State.discardFrame_eq, hs]
        · rw [State.discardFrame_eq]
      · rename_i hv
        refine .of_link (fun ⟨_, hreceiver, _⟩ => ?_) rfl rfl
        obtain ⟨-, -, -, hviolation⟩ := (State.receiverOk_iff_assembling hrx).1 hreceiver
        exact absurd (hviolation (by rw [hs]; rfl)) hv
    · rename_i hrx
      exact .of_link (fun h => h.startFrame hs hrx (State.outgoing_isSome h.1 hs)) rfl rfl
  · exact .refl s

/-- After a PART the reply waits for its CONTINUE (R156). -/
theorem State.LinkOk.awaitContinue {s : State} (h : s.LinkOk) (hs : s.exch.state = .sending) (hlde : s.exch.lde = true)
    {k : Nat} (hsend : s.exch.send = some (.segment k)) (hlast : s.exch.isLast k = false) :
    ({ s with exch := { s.exch with lastSent := some (k % 16), contTime := some 0, send := none, lde := false,
                                    ltx := none } }.enter .awaitContinue).LinkOk := by
  obtain ⟨hok, hreceiver, -⟩ := id h
  obtain ⟨hn, hcode, -, ⟨hformat, -⟩ | ⟨k', r, hk', hreply, hcount, hnext, hr, hlt⟩⟩ :=
    (Exchange.ok_iff_sending hs).1 hok
  · rw [hsend] at hformat; cases hformat
  · obtain rfl : k = k' := by rw [hsend] at hk'; cases hk'; rfl
    have hmore : k + 1 < (r.length + 63) / 64 := by
      have hne : (r.length + 63) / 64 ≠ k + 1 := by simpa [Exchange.isLast, hcount] using hlast
      omega
    have hrx : s.rx.state = .hunt := by
      cases hrx : s.rx.state with
      | hunt => rfl
      | assembling f =>
        obtain ⟨-, -, hlow, -⟩ := (State.receiverOk_iff_assembling hrx).1 hreceiver
        rw [hlde] at hlow; cases hlow
    exact ⟨(Exchange.ok_iff_await rfl).2 ⟨hn, hcode, rfl, rfl, rfl, k + 1, r, 0, hreply, hcount, hnext, rfl, rfl, hr,
        Nat.le_add_left 1 k, hmore, Nat.zero_le _⟩,
      State.receiverOk_of_hunt hrx nofun, State.recordOk_of_none (h.no_record (hs ▸ nofun)) nofun⟩

theorem execFrameSent_keepsLink {s t : State} (h : execFrameSent s = .next t) : s.KeepsLink t := by
  have hturn (h : (decide (s.exch.state = .sending) && s.exch.lde) = true) :
      s.exch.state = .sending ∧ s.exch.lde = true := by
    rwa [Bool.and_eq_true, decide_eq_true_eq] at h
  unfold execFrameSent at h
  split at h <;> cases h
  · exact .refl s
  · split
    · rename_i hsent
      obtain ⟨hs, -⟩ := hturn hsent
      exact State.endExchange_keepsLink (hs ▸ nofun) .ready
    · exact .refl s
  · rename_i k hsend
    split
    · rename_i hsent
      obtain ⟨hs, hlde⟩ := hturn hsent
      split
      · exact State.endExchange_keepsLink (hs ▸ nofun) .sent
      · rename_i hlast
        exact .of_link (fun h => h.awaitContinue hs hlde hsend (Bool.eq_false_iff.2 hlast)) rfl rfl
    · exact .refl s

end Sys2Proof.Machine
end

section
/-! Pins, time and the requests keep the link and the Scan Supervisor in order, and so does every step; while SYSRSTN is low
every block stands at its reset values (R19, R20, R136, R145, R155, R161, R167). -/

namespace Sys2Proof.Machine

open State (Beside KeepsLink CarriedOut)

/-! ## CTLRUN and time (R67, R136, R139, R145, R161) -/

theorem exec_ctlrunRise_keepsLink {s t : State} (hs : s.sysrstn = true) (h : exec .ctlrunRise s = .next t) :
    s.KeepsLink t := by
  cases hc : s.ctlrun with
  | true =>
    have hstay : exec .ctlrunRise s = .next { s with ctlrun := true } :=
      congrArg Host.Outcome.next (if_neg (by simp [hc]))
    rw [hstay] at h
    cases h
    exact Beside.keeps (.of_eq rfl (congrArg (SupervisorSide.mk s.sup) hc.symm) rfl)
  | false =>
    rw [exec_ctlrunRise_of_low hs hc] at h
    cases h
    refine .of_supervisor (fun hsup => ?_) rfl rfl
    rw [State.supervisorOk_iff] at hsup ⊢
    exact hsup.ctlrunRise hc

theorem exec_ctlrunFall_keepsLink {s t : State} (hs : s.sysrstn = true) (h : exec .ctlrunFall s = .next t) :
    s.KeepsLink t := by
  cases hc : s.ctlrun with
  | true =>
    have hfall : exec .ctlrunFall s = .next { s with
        ctlrun := false, sup := { s.sup with state := .inactive, elapsed := none } } :=
      congrArg Host.Outcome.next (if_pos (by simp [hs, hc]))
    rw [hfall] at h
    cases h
    refine .of_supervisor (fun hsup => ?_) rfl rfl
    rw [State.supervisorOk_iff] at hsup ⊢
    exact hsup.ctlrunFall
  | false =>
    have hstay : exec .ctlrunFall s = .next { s with ctlrun := false } :=
      congrArg Host.Outcome.next (if_neg (by simp [hc]))
    rw [hstay] at h
    cases h
    exact Beside.keeps (.of_eq rfl (congrArg (SupervisorSide.mk s.sup) hc.symm) rfl)

theorem State.expireLease_beside (s : State) : s.Beside s.expireLease := .of_eq rfl rfl rfl

theorem State.takeExpiries_keepsLink (s : State) : s.KeepsLink s.takeExpiries := by
  have hlease (u : State) : u.KeepsLink (if u.leaseDue then u.expireLease else u) := .ite _ u.expireLease_beside.keeps
  have hcont (u : State) : u.KeepsLink (if u.continuationDue then u.endTransfer else u) :=
    .ite _ u.endTransfer_keepsLink
  exact ((hlease s).trans (State.stall_keepsLink _)).trans (hcont _)

/-- After the expiries no transfer has waited 1 s (R161). -/
theorem State.takeExpiries_not_due (s : State) : s.takeExpiries.continuationDue = false := by
  have hcont (u : State) : (if u.continuationDue then u.endTransfer else u).continuationDue = false := by
    split
    · rename_i hdue
      rw [State.continuationDue, Bool.and_eq_true, decide_eq_true_eq] at hdue
      rw [State.endTransfer_of_await hdue.1]
      rfl
    · rename_i hnot
      exact Bool.eq_false_iff.2 hnot
  exact hcont _

/-- One µs is counted while no transfer has waited 1 s. -/
theorem State.countMicro_keepsLink {s : State} (hdue : s.continuationDue = false) : s.KeepsLink s.countMicro := by
  refine ⟨rfl, fun h => ?_, fun h => ?_⟩
  · by_cases hs : s.exch.state = .awaitContinue
    · obtain ⟨hok, hreceiver, hrecord⟩ := h
      obtain ⟨hn, hcode, hlde, hltx, hsend, k, r, t, hreply, hcount, hnext, htime, hlast, hr, hk, hlt, -⟩ :=
        (Exchange.ok_iff_await hs).1 hok
      have ht : t + 1 ≤ 1000000 := by
        simpa [State.continuationDue, hs, htime, Config.continuationLimit] using hdue
      rw [State.countMicro, if_pos hs, htime]
      exact ⟨(Exchange.ok_iff_await (e := { s.exch with contTime := some (t + 1) }) hs).2
        ⟨hn, hcode, hlde, hltx, hsend, k, r, t + 1, hreply, hcount, hnext, rfl, hlast, hr, hk, hlt, ht⟩,
        hreceiver, hrecord⟩
    · rw [State.countMicro, if_neg hs]
      exact h
  · rw [State.supervisorOk_iff] at h ⊢
    exact h.countMicro

theorem execTimeBaseTick_keepsLink {s t : State} (h : execTimeBaseTick s = .next t) : s.KeepsLink t := by
  cases h
  exact .ite _ (s.takeExpiries_keepsLink.trans (State.countMicro_keepsLink s.takeExpiries_not_due))

/-! ## The REQUESTs that name none (R155, R167) -/

theorem execEmptyRequest_keepsLink {s t : State} {c : RxChar} (h : execEmptyRequest c s = .next t) : s.KeepsLink t := by
  unfold execEmptyRequest at h
  split at h <;> cases h
  · exact State.takeRequest_keepsLink ‹_› (.answer rfl rfl)
  · exact .refl s

theorem execUnknownRequest_keepsLink {s t : State} {c : RxChar} (h : execUnknownRequest c s = .next t) :
    s.KeepsLink t := by
  unfold execUnknownRequest at h
  split at h
  · rename_i k params hreq
    split at h <;> cases h
    · exact .refl s
    · exact State.takeRequest_keepsLink hreq (.answer rfl rfl)
  · cases h
    exact .refl s

/-! ## The step while SYSRSTN is high -/

/-- Every command but the fall of SYSRSTN keeps the link and the supervisor while SYSRSTN is high. -/
theorem exec_keepsLink {i : Instr} {s t : State} (hi : i ≠ .sysrstnFall) (hs : s.sysrstn = true)
    (h : exec i s = .next t) : s.KeepsLink t := by
  cases i with
  | accessTake p => cases h; exact (s.moveBus_beside p).keeps
  | cycleEnd p => cases h; exact (s.moveBus_beside p).keeps
  | controllerReadDataReturn => exact execControllerReadDataReturn_keepsLink h
  | reservationExpiry => exact execReservationExpiry_keepsLink h
  | controllerWriteReachesMemory => exact execControllerWriteReachesMemory_keepsLink h
  | captureReadReturn => exact execCaptureReadReturn_keepsLink h
  | fillReadReturn => exact execFillReadReturn_keepsLink h
  | readOperationDataReturn => exact execReadOperationDataReturn_keepsLink h
  | writeOperationReachesMemory => exact execWriteOperationReachesMemory_keepsLink h
  | modifyReadComplete => exact execModifyReadComplete_keepsLink h
  | modifyWriteReachesMemory => exact execModifyWriteReachesMemory_keepsLink h
  | sysrstnFall => exact absurd rfl hi
  | sysrstnRise node rate space => cases h; rw [if_pos hs]; exact .refl s
  | ctlrunRise => exact exec_ctlrunRise_keepsLink hs h
  | ctlrunFall => exact exec_ctlrunFall_keepsLink hs h
  | scanLimitExpiry => cases h; exact s.stall_keepsLink
  | leaseExpiry => cases h; exact .ite _ s.expireLease_beside.keeps
  | frameStart c => exact execFrameStart_keepsLink h
  | overlongLength c => exact execOverlongLength_keepsLink h
  | interByteTimeout => exact execInterByteTimeout_keepsLink h
  | badFrame c => cases h; exact .ite _ s.discardFrame_keepsLink
  | ignoredFrame c => cases h; exact .ite _ s.endFrame_keepsLink
  | requestOtherNode c => cases h; exact .ite _ s.endFrameAndTransfer_keepsLink
  | broadcastRequest c => exact execBroadcastRequest_keepsLink h
  | continueFrame c => exact execContinueFrame_keepsLink h
  | abortFrame c => exact execAbortFrame_keepsLink h
  | continuationLimit => cases h; exact .ite _ s.endTransfer_keepsLink
  | breakLine => exact execBreakLine_keepsLink h
  | frameTransmitStart => exact execFrameTransmitStart_keepsLink h
  | frameSent => exact execFrameSent_keepsLink h
  | emptyRequest c => exact execEmptyRequest_keepsLink h
  | unknownRequest c => exact execUnknownRequest_keepsLink h
  | probe c => exact State.onRequest_keepsLink h doProbe_carriedOut
  | identify c => exact State.onRequest_keepsLink h CarriedOut.report
  | status c => exact State.onRequest_keepsLink h CarriedOut.report
  | level c => exact State.onRequest_keepsLink h doLevel_carriedOut
  | sessionClear c => exact State.onRequest_keepsLink h (CarriedOut.withoutParams fun _ => .answer rfl rfl)
  | peek c => exact State.onRequest_keepsLink h doPeek_carriedOut
  | poke c => exact State.onRequest_keepsLink h doPoke_carriedOut
  | sync c => exact State.onRequest_keepsLink h (CarriedOut.withoutParams doSync_carriedOut)
  | force c => exact State.onRequest_keepsLink h doForce_carriedOut
  | releaseAll c => exact State.onRequest_keepsLink h (CarriedOut.withoutParams fun _ => .answer rfl rfl)
  | forceList c => exact State.onRequest_keepsLink h CarriedOut.report
  | watchDefine c => exact State.onRequest_keepsLink h doWatchDefine_carriedOut
  | watchAppend c => exact State.onRequest_keepsLink h doWatchAppend_carriedOut
  | watchList c => exact State.onRequest_keepsLink h CarriedOut.report
  | watchArm c => exact State.onRequest_keepsLink h doWatchArm_carriedOut
  | watchStop c => exact State.onRequest_keepsLink h (CarriedOut.withoutParams fun _ => .answer rfl rfl)
  | snapRead c => exact State.onRequest_keepsLink h doSnapRead_carriedOut
  | snapAck c => exact State.onRequest_keepsLink h (CarriedOut.withoutParams State.acknowledge_carriedOut)
  | scanConfig c => exact State.onRequest_keepsLink h doScanConfig_carriedOut
  | scanStats c => exact State.onRequest_keepsLink h doScanStats_carriedOut
  | regionSet c => exact State.onRequest_keepsLink h doRegionSet_carriedOut
  | regionList c => exact State.onRequest_keepsLink h CarriedOut.report
  | logRead c => exact State.onRequest_keepsLink h (CarriedOut.withoutParams fun _ => .answer rfl rfl)
  | alertClear c => exact State.onRequest_keepsLink h doAlertClear_carriedOut
  | alertEnable c => exact State.onRequest_keepsLink h doAlertEnable_carriedOut
  | timeBaseTick => exact execTimeBaseTick_keepsLink h
  | lrxReturnsToMark => exact execLrxReturnsToMark_keepsLink h
  | frameCharacterTaken c => exact execFrameCharacterTaken_keepsLink h
  | turnViolationAtFinalByte c => cases h; exact .ite _ s.discardFrame_keepsLink

/-! ## The step while SYSRSTN is low (R19, R20) -/

/-- What every step keeps, while SYSRSTN is low and while it is high. -/
structure State.Settled (s : State) : Prop where
  low : s.LowOk
  link : s.LinkOk
  supervisor : s.supervisorOk = true

/-- The reset values are in order. -/
theorem State.resetBlocks_settled (s : State) : s.resetBlocks.Settled :=
  ⟨fun _ => rfl, reset_meets_coherent.link, rfl⟩

/-- While SYSRSTN is low no access is taken, and the idle port stays idle. -/
theorem State.moveBus_resetBlocks (s : State) (p : BusPins) :
    s.resetBlocks.moveBus p = ({ s with bus := p } : State).resetBlocks := by
  rw [State.moveBus]
  split
  · rfl
  · rfl

/-- Of blocks at their reset values a command other than the rise of SYSRSTN moves at most the pins. -/
theorem exec_resetBlocks {i : Instr} (hi : ∀ node rate space, i ≠ .sysrstnRise node rate space) {s t : State}
    (h : exec i s.resetBlocks = .next t) : ∃ u : State, t = u.resetBlocks := by
  cases i with
  | sysrstnRise node rate space => exact absurd rfl (hi node rate space)
  | accessTake p => cases h; exact ⟨{ s with bus := p }, s.moveBus_resetBlocks p⟩
  | cycleEnd p => cases h; exact ⟨{ s with bus := p }, s.moveBus_resetBlocks p⟩
  | ctlrunRise => cases h; exact ⟨{ s with ctlrun := true }, rfl⟩
  | ctlrunFall => cases h; exact ⟨{ s with ctlrun := false }, rfl⟩
  | _ => cases h; exact ⟨s, rfl⟩

/-- After the rise of SYSRSTN the blocks begin from their reset values. -/
theorem exec_sysrstnRise_settled {node : BitVec 4} {rate : BitVec 2} {space : Bool} {s t : State}
    (h : exec (.sysrstnRise node rate space) s.resetBlocks = .next t) : t.Settled := by
  cases h
  obtain ⟨hs, hl, hv⟩ := (State.tryTake_beside { s.resetBlocks with
    sysrstn := true, strapNode := node, strapRate := rate, rx := ⟨.hunt, space⟩ }).keeps
  refine ⟨fun hlow => ?_, hl ?_, hv rfl⟩
  · exact absurd (hs.symm.trans hlow) nofun
  · obtain ⟨hok, -, hrecord⟩ := s.resetBlocks_settled.link
    exact ⟨hok, State.receiverOk_of_hunt rfl nofun, hrecord⟩

theorem exec_settled_of_low {i : Instr} {s t : State} (h : exec i s.resetBlocks = .next t) : t.Settled := by
  by_cases hi : ∃ node rate space, i = .sysrstnRise node rate space
  · obtain ⟨node, rate, space, rfl⟩ := hi
    exact exec_sysrstnRise_settled h
  · obtain ⟨u, rfl⟩ := exec_resetBlocks (fun node rate space hrise => hi ⟨node, rate, space, hrise⟩) h
    exact u.resetBlocks_settled

/-! ## The step -/

/-- Settles O56: an empty queue idles, a command from low SYSRSTN and the fall of it find or leave the reset values, and every
other command keeps the link and the supervisor. -/
theorem linkAndSupervisorKept : Obligations.LinkAndSupervisorKept := by
  intro s t hstep hlow
  unfold step at hstep
  split at hstep
  · cases hstep
    exact ⟨hlow, id, id⟩
  · rename_i i rest _
    cases hs : s.sysrstn with
    | false =>
      have hreset : { s with pending := rest } = ({ s with pending := rest } : State).resetBlocks :=
        congrArg (fun u : State => { u with pending := rest }) (hlow hs)
      rw [hreset] at hstep
      obtain ⟨hl, hlink, hsup⟩ := exec_settled_of_low hstep
      exact ⟨hl, fun _ => hlink, fun _ => hsup⟩
    | true =>
      by_cases hi : i = .sysrstnFall
      · subst hi
        cases hstep
        rw [if_pos hs]
        obtain ⟨hl, hlink, hsup⟩ := State.resetBlocks_settled (State.carryGrant { s with pending := rest })
        exact ⟨hl, fun _ => hlink, fun _ => hsup⟩
      · obtain ⟨hkeep, hlink, hsup⟩ := exec_keepsLink (s := { s with pending := rest }) hi hs hstep
        exact ⟨fun hfall => absurd (hkeep.symm.trans hfall) (hs ▸ nofun), hlink, hsup⟩

end Sys2Proof.Machine
end

section
/-! WATCH ARM and WATCH STOP (R102, R103, R183): they set the mode of the Watch List and leave a fill in flight alone. -/

namespace Sys2Proof.Machine

/-- WATCH ARM of a mode, on a request taken: the list of the state it was taken from decides. -/
theorem doWatchArm_taken {params : List Byte} {m : WatchMode} (h : parseArm params = some m) (s : State) :
    doWatchArm params (s.takeRequest 0x33) =
      let u := s.takeRequest 0x33
      if s.watch.items = [] then u.answer .conflict []
      else { u with watch := { s.watch with mode := m } }.answer .ok [] := by
  simp only [doWatchArm, h, State.takeRequest_watch]

theorem doWatchArm_of_format {params : List Byte} (h : parseArm params = none) (u : State) :
    doWatchArm params u = u.answer .format [] := by
  rw [doWatchArm, h]

/-- Settles O46: WATCH ARM by its mode and by whether the list is empty, and WATCH STOP by its parameters. -/
theorem watchArmed : Obligations.WatchArmed := by
  refine fun s c params => ⟨?_, ?_⟩
  · rintro hreq u rfl
    refine ⟨fun m hm hlayout => ?_, fun hnone => ?_⟩
    · have hd := doWatchArm_taken ((parseArm_some params m).2 ⟨hm, hlayout⟩) s
      exact ⟨fun hempty => State.onRequest_replies rfl hreq (hd.trans (if_pos hempty)) rfl rfl,
        fun hitems => State.onRequest_replies rfl hreq (hd.trans (if_neg hitems)) rfl rfl⟩
    · refine State.onRequest_replies rfl hreq (doWatchArm_of_format ?_ _) rfl rfl
      refine Option.eq_none_iff_forall_ne_some.2 fun m hp => ?_
      obtain ⟨hm, hlayout⟩ := (parseArm_some params m).1 hp
      exact hnone m hm hlayout
  · rintro u rfl
    refine ⟨fun hreq => ?_, fun hparams hreq => withoutParams_format rfl hparams hreq⟩
    rw [← s.takeRequest_watch 0x34]
    exact State.onRequest_replies rfl hreq (if_pos rfl) rfl rfl

end Sys2Proof.Machine
end

section
/-! ALERT CLEAR, ALERT ENABLE and ALERTN (R188, R200, R201, R202). -/

namespace Sys2Proof.Machine

/-! ## The mask parameter (R188, R191) -/

theorem parseMask_of_length {params : List Byte} (h : params.length ≠ 1) : parseMask params = none := by
  refine Option.eq_none_iff_forall_ne_some.2 fun a hp => ?_
  obtain ⟨m, rfl, -⟩ := (parseMask_some params a).1 hp
  exact h rfl

/-! ## The requests carried out -/

theorem doAlertClear_of_mask (m : Byte) (u : State) :
    doAlertClear [m] u = { u with latched := u.latched.without (AlertSet.ofMask m) }.answer .ok [] := rfl

theorem doAlertClear_of_format {params : List Byte} (h : parseMask params = none) (u : State) :
    doAlertClear params u = u.answer .format [] := by
  rw [doAlertClear, h]

theorem doAlertEnable_of_mask (m : Byte) (u : State) :
    doAlertEnable [m] u = { u with enabled := AlertSet.ofMask m }.answer .ok [] := rfl

theorem doAlertEnable_of_format {params : List Byte} (h : parseMask params = none) (u : State) :
    doAlertEnable params u = u.answer .format [] := by
  rw [doAlertEnable, h]

/-! ## ALERTN (R200) -/

theorem AlertSet.meets_iff (a b : AlertSet) :
    a.meets b = true ↔ (a.snapReady && b.snapReady) = true ∨ (a.guard && b.guard) = true
      ∨ (a.leaseLost && b.leaseLost) = true ∨ (a.stall && b.stall) = true ∨ (a.linkFault && b.linkFault) = true := by
  simp only [AlertSet.meets, Bool.or_eq_true, or_assoc]

theorem State.alertn_low_iff (s : State) :
    s.alertn = some false ↔ s.sysrstn = true ∧ s.latched.meets s.enabled = true := by
  rw [← Bool.and_eq_true, ← State.alertnLow, State.alertn]
  cases s.alertnLow <;> simp

/-- Settles O52: each request by its payload, both broadcasts among those ignored, and ALERTN source by source. -/
theorem alertsWritten : Obligations.AlertsWritten := by
  refine fun s c params => ⟨?_, ?_, ?_, ?_⟩
  · rintro hreq u rfl
    refine ⟨?_, fun hlen => ?_⟩
    · rintro m rfl
      rw [← s.takeRequest_latched 0x60]
      exact State.onRequest_replies rfl hreq (doAlertClear_of_mask m _) rfl rfl
    · exact State.onRequest_replies rfl hreq (doAlertClear_of_format (parseMask_of_length hlen) _) rfl rfl
  · rintro hreq u rfl
    refine ⟨?_, fun hlen => ?_⟩
    · rintro m rfl
      exact State.onRequest_replies rfl hreq (doAlertEnable_of_mask m _) rfl rfl
    · exact State.onRequest_replies rfl hreq (doAlertEnable_of_format (parseMask_of_length hlen) _) rfl rfl
  · rintro code (rfl | rfl) hbroadcast
    all_goals rw [exec_broadcastRequest hbroadcast, State.actBroadcast_of_other _ (by simp) (by simp)]
  · rw [s.alertn_low_iff, AlertSet.meets_iff]

end Sys2Proof.Machine
end

section
/-! The strapped node (R147, R204): the shared operations and the requests leave it, and so does every command but the rise of
SYSRSTN. -/

namespace Sys2Proof.Machine

/-! ## The shared operations -/

@[simp] theorem State.decideGrant_strapNode (s : State) : s.decideGrant.strapNode = s.strapNode := by
  obtain ⟨_, _, _, h⟩ := s.decideGrant_changes; rw [h]

@[simp] theorem State.afterControllerGrant_strapNode (s : State) : s.afterControllerGrant.strapNode = s.strapNode := by
  obtain ⟨_, _, _, h⟩ := s.afterControllerGrant_changes; rw [h]

@[simp] theorem State.tryTake_strapNode (s : State) : s.tryTake.strapNode = s.strapNode := by
  obtain ⟨_, _, _, _, _, _, h⟩ := s.tryTake_changes; rw [h]

@[simp] theorem State.completeAccess_strapNode (s : State) (word : Option Word) :
    (s.completeAccess word).strapNode = s.strapNode := by
  obtain ⟨_, _, _, _, _, _, h⟩ := s.completeAccess_changes word; rw [h]

@[simp] theorem State.moveBus_strapNode (s : State) (p : BusPins) : (s.moveBus p).strapNode = s.strapNode := by
  obtain ⟨_, _, _, _, _, _, h⟩ := s.moveBus_changes p; rw [h]

@[simp] theorem State.capture_strapNode (s : State) (a : Addr) (w : Word) : (s.capture a w).strapNode = s.strapNode := by
  obtain ⟨_, _, _, _, _, h⟩ := s.capture_changes a w; rw [h]

@[simp] theorem State.examineRecord_strapNode (s : State) : s.examineRecord.strapNode = s.strapNode := by
  obtain ⟨_, _, _, h⟩ := s.examineRecord_changes; rw [h]

@[simp] theorem State.enqueue_strapNode (s : State) (new : List Operation) :
    (s.enqueue new).strapNode = s.strapNode := by
  obtain ⟨_, _, _, _, _, _, h⟩ := s.enqueue_changes new; rw [h]

@[simp] theorem State.retireHead_strapNode (s : State) (w : Word) : (s.retireHead w).strapNode = s.strapNode := by
  obtain ⟨_, _, _, _, _, _, h⟩ := s.retireHead_changes w; rw [h]

@[simp] theorem State.abandonRecord_strapNode (s : State) : s.abandonRecord.strapNode = s.strapNode := by
  obtain ⟨_, _, _, h⟩ := s.abandonRecord_changes; rw [h]

@[simp] theorem State.enterStall_strapNode (s : State) : s.enterStall.strapNode = s.strapNode := by
  obtain ⟨_, h⟩ := s.enterStall_changes; rw [h]

@[simp] theorem State.markerCheck_strapNode (s : State) (a : Addr) : (s.markerCheck a).strapNode = s.strapNode := by
  obtain ⟨_, _, _, _, _, _, _, _, _, h⟩ := s.markerCheck_changes a; rw [h]

@[simp] theorem State.carryGrant_strapNode (s : State) : s.carryGrant.strapNode = s.strapNode := by
  obtain ⟨_, _, _, _, _, _, _, _, _, _, h⟩ := s.carryGrant_changes; rw [h]

@[simp] theorem State.endFrame_strapNode (s : State) : s.endFrame.strapNode = s.strapNode := by
  rw [State.endFrame_eq]

@[simp] theorem State.discardFrame_strapNode (s : State) : s.discardFrame.strapNode = s.strapNode := by
  rw [State.discardFrame_eq]

@[simp] theorem State.endExchange_strapNode (s : State) (dest : BankState) :
    (s.endExchange dest).strapNode = s.strapNode := by
  rw [State.endExchange_eq]

@[simp] theorem State.endTransfer_strapNode (s : State) : s.endTransfer.strapNode = s.strapNode := by
  obtain ⟨_, _, _, _, h⟩ := s.endTransfer_changes; rw [h]

@[simp] theorem State.serveContinue_strapNode (s : State) (segment : Nat) :
    (s.serveContinue segment).strapNode = s.strapNode := by
  obtain ⟨_, _, _, _, h⟩ := s.serveContinue_changes segment; rw [h]

@[simp] theorem State.actBroadcast_strapNode (s : State) (payload : List Byte) :
    (s.actBroadcast payload).strapNode = s.strapNode := by
  obtain ⟨_, _, h⟩ := s.actBroadcast_changes payload; rw [h]

@[simp] theorem State.emptyBank_strapNode (s : State) (i : BankId) : (s.emptyBank i).strapNode = s.strapNode := by
  obtain ⟨_, _, h⟩ := s.emptyBank_changes i; rw [h]

/-- A change made under a condition alone. -/
theorem State.ite_strapNode {s u : State} (c : Prop) [Decidable c] (h : u.strapNode = s.strapNode) :
    (if c then u else s).strapNode = s.strapNode := by
  split
  · exact h
  · rfl

theorem State.takeExpiries_strapNode (s : State) : s.takeExpiries.strapNode = s.strapNode := by
  have hlease (u : State) : (if u.leaseDue then u.expireLease else u).strapNode = u.strapNode :=
    State.ite_strapNode _ rfl
  have hstall (u : State) : (if u.sup.due then u.enterStall else u).strapNode = u.strapNode :=
    State.ite_strapNode _ u.enterStall_strapNode
  have hcont (u : State) : (if u.continuationDue then u.endTransfer else u).strapNode = u.strapNode :=
    State.ite_strapNode _ u.endTransfer_strapNode
  exact (hcont _).trans ((hstall _).trans (hlease s))

/-! ## The requests -/

theorem State.onRequest_strapNode {s t : State} {c : RxChar} {code : Byte} {carryOut : List Byte → State → State}
    (h : s.onRequest c code carryOut = .next t) (hk : ∀ params u, (carryOut params u).strapNode = u.strapNode) :
    t.strapNode = s.strapNode :=
  State.onRequest_keeps (fun u => u.strapNode = s.strapNode) rfl
    (fun params => (hk params _).trans (s.takeRequest_strapNode code)) h

theorem withoutParams_strapNode {carryOut : State → State} (hk : ∀ u : State, (carryOut u).strapNode = u.strapNode)
    (params : List Byte) (u : State) : (withoutParams carryOut params u).strapNode = u.strapNode := by
  unfold withoutParams
  split
  · exact hk u
  · rfl

theorem doProbe_strapNode (params : List Byte) (u : State) : (doProbe params u).strapNode = u.strapNode := by
  unfold doProbe
  split <;> rfl

theorem doLevel_strapNode (params : List Byte) (u : State) : (doLevel params u).strapNode = u.strapNode := by
  unfold doLevel
  split <;> rfl

theorem doPeek_strapNode (params : List Byte) (u : State) : (doPeek params u).strapNode = u.strapNode := by
  rcases doPeek_outcomes params u with ⟨st, he⟩ | ⟨a, n, he⟩ <;> rw [he]
  · rfl
  · exact State.enqueue_strapNode _ _

theorem doPoke_strapNode (params : List Byte) (u : State) : (doPoke params u).strapNode = u.strapNode := by
  rcases doPoke_outcomes params u with ⟨st, he⟩ | ⟨a, ws, he⟩ <;> rw [he]
  · rfl
  · exact u.enqueue_strapNode _

theorem doForce_strapNode (params : List Byte) (u : State) : (doForce params u).strapNode = u.strapNode := by
  rcases doForce_outcomes params u with ⟨st, he⟩ | ⟨forces, ws, he⟩ <;> rw [he]
  · rfl
  · exact State.enqueue_strapNode _ _

theorem State.changeWatch_strapNode (u : State) (new list : List WatchItem) :
    (u.changeWatch new list).strapNode = u.strapNode := by
  rcases u.changeWatch_outcomes new list with ⟨st, he⟩ | ⟨-, w, data, he⟩ <;> rw [he] <;> rfl

theorem doWatchDefine_strapNode (params : List Byte) (u : State) : (doWatchDefine params u).strapNode = u.strapNode := by
  rcases doWatchDefine_outcomes params u with ⟨st, he⟩ | ⟨new, list, he⟩ <;> rw [he]
  · rfl
  · exact u.changeWatch_strapNode new list

theorem doWatchAppend_strapNode (params : List Byte) (u : State) : (doWatchAppend params u).strapNode = u.strapNode := by
  rcases doWatchAppend_outcomes params u with ⟨st, he⟩ | ⟨new, list, he⟩ <;> rw [he]
  · rfl
  · exact u.changeWatch_strapNode new list

theorem doWatchArm_strapNode (params : List Byte) (u : State) : (doWatchArm params u).strapNode = u.strapNode := by
  unfold doWatchArm
  split
  · rfl
  · split <;> rfl

theorem doSnapRead_strapNode (params : List Byte) (u : State) : (doSnapRead params u).strapNode = u.strapNode := by
  unfold doSnapRead
  split
  · rfl
  · split
    · rfl
    · exact u.setBank_strapNode _ _

theorem State.acknowledge_strapNode (u : State) : u.acknowledge.strapNode = u.strapNode := by
  unfold State.acknowledge
  split
  · exact u.emptyBank_strapNode .a
  · split
    · exact u.emptyBank_strapNode .b
    · rfl

theorem doScanConfig_strapNode (params : List Byte) (u : State) : (doScanConfig params u).strapNode = u.strapNode := by
  unfold doScanConfig
  split
  · rfl
  · split_ifs <;> rfl

theorem doScanStats_strapNode (params : List Byte) (u : State) : (doScanStats params u).strapNode = u.strapNode := by
  unfold doScanStats
  split <;> rfl

theorem doRegionSet_strapNode (params : List Byte) (u : State) : (doRegionSet params u).strapNode = u.strapNode := by
  rcases doRegionSet_admitted params u with ⟨st, he⟩ | ⟨n, r, -, -, -, he⟩ <;> rw [he] <;> rfl

theorem doAlertClear_strapNode (params : List Byte) (u : State) : (doAlertClear params u).strapNode = u.strapNode := by
  unfold doAlertClear
  split <;> rfl

theorem doAlertEnable_strapNode (params : List Byte) (u : State) : (doAlertEnable params u).strapNode = u.strapNode := by
  unfold doAlertEnable
  split <;> rfl

theorem execUnknownRequest_strapNode {s t : State} {c : RxChar} (h : execUnknownRequest c s = .next t) :
    t.strapNode = s.strapNode := by
  unfold execUnknownRequest at h
  split at h <;> cases h
  · rename_i k _ _
    split
    · rfl
    · exact s.takeRequest_strapNode k
  · rfl

/-! ## The access path -/

theorem execControllerReadDataReturn_strapNode {s t : State} (h : execControllerReadDataReturn s = .next t) :
    t.strapNode = s.strapNode := by
  unfold execControllerReadDataReturn at h
  split at h <;> cases h
  · simp
  · rfl

theorem execReservationExpiry_strapNode {s t : State} (h : execReservationExpiry s = .next t) :
    t.strapNode = s.strapNode := by
  unfold execReservationExpiry at h
  split at h <;> cases h
  · exact State.decideGrant_strapNode _
  · rfl

theorem execControllerWriteReachesMemory_strapNode {s t : State} (h : execControllerWriteReachesMemory s = .next t) :
    t.strapNode = s.strapNode := by
  unfold execControllerWriteReachesMemory at h
  split at h <;> cases h
  · simp
  · rfl

theorem execCaptureReadReturn_strapNode {s t : State} (h : execCaptureReadReturn s = .next t) :
    t.strapNode = s.strapNode := by
  unfold execCaptureReadReturn at h
  split at h <;> cases h
  · exact s.capture_strapNode _ _
  · rfl

theorem execFillReadReturn_strapNode {s t : State} (h : execFillReadReturn s = .next t) : t.strapNode = s.strapNode := by
  unfold execFillReadReturn at h
  split at h <;> cases h
  · exact (State.decideGrant_strapNode _).trans (s.capture_strapNode _ _)
  · rfl

theorem execReadOperationDataReturn_strapNode {s t : State} (h : execReadOperationDataReturn s = .next t) :
    t.strapNode = s.strapNode := by
  unfold execReadOperationDataReturn at h
  split at h
  · split at h <;> cases h
    · exact s.retireHead_strapNode _
    · rfl
    · rfl
  · cases h; rfl

theorem execWriteOperationReachesMemory_strapNode {s t : State} (h : execWriteOperationReachesMemory s = .next t) :
    t.strapNode = s.strapNode := by
  unfold execWriteOperationReachesMemory at h
  split at h
  · split at h <;> cases h
    · exact State.retireHead_strapNode _ _
    · rfl
    · rfl
  · cases h; rfl

theorem execModifyReadComplete_strapNode {s t : State} (h : execModifyReadComplete s = .next t) :
    t.strapNode = s.strapNode := by
  unfold execModifyReadComplete at h
  split at h
  · split at h <;> cases h
    · exact s.capture_strapNode _ _
    · rfl
    · rfl
  · cases h; rfl

theorem execModifyWriteReachesMemory_strapNode {s t : State} (h : execModifyWriteReachesMemory s = .next t) :
    t.strapNode = s.strapNode := by
  unfold execModifyWriteReachesMemory at h
  split at h
  · split at h <;> cases h
    · exact State.retireHead_strapNode _ _
    · rfl
    · rfl
  · cases h; rfl

/-! ## CTLRUN and the link -/

theorem execCtlrunRise_strapNode {s t : State} (h : execCtlrunRise s = .next t) : t.strapNode = s.strapNode := by
  cases h
  dsimp only
  split <;> rfl

theorem execCtlrunFall_strapNode {s t : State} (h : execCtlrunFall s = .next t) : t.strapNode = s.strapNode := by
  cases h
  dsimp only
  split <;> rfl

theorem execFrameStart_strapNode {s t : State} {c : RxChar} (h : execFrameStart c s = .next t) :
    t.strapNode = s.strapNode := by
  cases h
  refine State.ite_strapNode _ ?_
  dsimp only
  split <;> rfl

theorem execFrameCharacterTaken_strapNode {s t : State} {c : RxChar} (h : execFrameCharacterTaken c s = .next t) :
    t.strapNode = s.strapNode := by
  unfold execFrameCharacterTaken at h
  split at h <;> cases h
  · rfl
  · exact State.ite_strapNode _ rfl

theorem execOverlongLength_strapNode {s t : State} {c : RxChar} (h : execOverlongLength c s = .next t) :
    t.strapNode = s.strapNode := by
  unfold execOverlongLength at h
  split at h <;> cases h
  · rfl
  · exact State.ite_strapNode _ s.discardFrame_strapNode

theorem execInterByteTimeout_strapNode {s t : State} (h : execInterByteTimeout s = .next t) :
    t.strapNode = s.strapNode := by
  unfold execInterByteTimeout at h
  split at h <;> cases h
  · rfl
  · exact State.ite_strapNode _ s.discardFrame_strapNode

theorem execBroadcastRequest_strapNode {s t : State} {c : RxChar} (h : execBroadcastRequest c s = .next t) :
    t.strapNode = s.strapNode := by
  unfold execBroadcastRequest at h
  split at h <;> cases h
  · simp
  · rfl

theorem execContinueFrame_strapNode {s t : State} {c : RxChar} (h : execContinueFrame c s = .next t) :
    t.strapNode = s.strapNode := by
  unfold execContinueFrame at h
  split at h <;> cases h
  · split <;> simp
  · exact s.endFrame_strapNode
  · rfl

theorem execAbortFrame_strapNode {s t : State} {c : RxChar} (h : execAbortFrame c s = .next t) :
    t.strapNode = s.strapNode := by
  unfold execAbortFrame at h
  split at h <;> cases h
  · split <;> simp
  · rfl

theorem execBreakLine_strapNode {s t : State} (h : execBreakLine s = .next t) : t.strapNode = s.strapNode := by
  cases h
  refine State.ite_strapNode _ ?_
  dsimp only
  split <;> simp

theorem execFrameTransmitStart_strapNode {s t : State} (h : execFrameTransmitStart s = .next t) :
    t.strapNode = s.strapNode := by
  cases h
  refine State.ite_strapNode _ ?_
  dsimp only
  split
  · exact State.ite_strapNode _ s.discardFrame_strapNode
  · rfl

theorem execFrameSent_strapNode {s t : State} (h : execFrameSent s = .next t) : t.strapNode = s.strapNode := by
  unfold execFrameSent at h
  split at h <;> cases h
  · rfl
  · exact State.ite_strapNode _ (s.endExchange_strapNode _)
  · refine State.ite_strapNode _ ?_
    split
    · exact s.endExchange_strapNode _
    · rfl

/-! ## Every command -/

/-- The straps are sampled at the rise of SYSRSTN alone (R147). -/
theorem exec_strapNode {i : Instr} (hi : ∀ node rate space, i ≠ .sysrstnRise node rate space) {s t : State}
    (h : exec i s = .next t) : t.strapNode = s.strapNode := by
  cases i with
  | accessTake p => cases h; exact s.moveBus_strapNode p
  | cycleEnd p => cases h; exact s.moveBus_strapNode p
  | controllerReadDataReturn => exact execControllerReadDataReturn_strapNode h
  | reservationExpiry => exact execReservationExpiry_strapNode h
  | controllerWriteReachesMemory => exact execControllerWriteReachesMemory_strapNode h
  | captureReadReturn => exact execCaptureReadReturn_strapNode h
  | fillReadReturn => exact execFillReadReturn_strapNode h
  | readOperationDataReturn => exact execReadOperationDataReturn_strapNode h
  | writeOperationReachesMemory => exact execWriteOperationReachesMemory_strapNode h
  | modifyReadComplete => exact execModifyReadComplete_strapNode h
  | modifyWriteReachesMemory => exact execModifyWriteReachesMemory_strapNode h
  | sysrstnFall => cases h; exact State.ite_strapNode _ (s.carryGrant.resetBlocks_strapNode.trans s.carryGrant_strapNode)
  | sysrstnRise node rate space => exact absurd rfl (hi node rate space)
  | ctlrunRise => exact execCtlrunRise_strapNode h
  | ctlrunFall => exact execCtlrunFall_strapNode h
  | scanLimitExpiry => cases h; exact State.ite_strapNode _ s.enterStall_strapNode
  | leaseExpiry => cases h; exact State.ite_strapNode _ s.expireLease_strapNode
  | frameStart c => exact execFrameStart_strapNode h
  | overlongLength c => exact execOverlongLength_strapNode h
  | interByteTimeout => exact execInterByteTimeout_strapNode h
  | badFrame c => cases h; exact State.ite_strapNode _ s.discardFrame_strapNode
  | ignoredFrame c => cases h; exact State.ite_strapNode _ s.endFrame_strapNode
  | requestOtherNode c =>
    cases h; exact State.ite_strapNode _ (s.endFrame.endTransfer_strapNode.trans s.endFrame_strapNode)
  | broadcastRequest c => exact execBroadcastRequest_strapNode h
  | continueFrame c => exact execContinueFrame_strapNode h
  | abortFrame c => exact execAbortFrame_strapNode h
  | continuationLimit => cases h; exact State.ite_strapNode _ s.endTransfer_strapNode
  | breakLine => exact execBreakLine_strapNode h
  | frameTransmitStart => exact execFrameTransmitStart_strapNode h
  | frameSent => exact execFrameSent_strapNode h
  | emptyRequest c => cases h; exact State.ite_strapNode _ (s.takeRequest_strapNode 0x00)
  | unknownRequest c => exact execUnknownRequest_strapNode h
  | probe c => exact State.onRequest_strapNode h doProbe_strapNode
  | identify c => exact State.onRequest_strapNode h (withoutParams_strapNode fun _ => rfl)
  | status c => exact State.onRequest_strapNode h (withoutParams_strapNode fun _ => rfl)
  | level c => exact State.onRequest_strapNode h doLevel_strapNode
  | sessionClear c => exact State.onRequest_strapNode h (withoutParams_strapNode fun _ => rfl)
  | peek c => exact State.onRequest_strapNode h doPeek_strapNode
  | poke c => exact State.onRequest_strapNode h doPoke_strapNode
  | sync c => exact State.onRequest_strapNode h (withoutParams_strapNode fun _ => State.examineRecord_strapNode _)
  | force c => exact State.onRequest_strapNode h doForce_strapNode
  | releaseAll c => exact State.onRequest_strapNode h (withoutParams_strapNode fun _ => rfl)
  | forceList c => exact State.onRequest_strapNode h (withoutParams_strapNode fun _ => rfl)
  | watchDefine c => exact State.onRequest_strapNode h doWatchDefine_strapNode
  | watchAppend c => exact State.onRequest_strapNode h doWatchAppend_strapNode
  | watchList c => exact State.onRequest_strapNode h (withoutParams_strapNode fun _ => rfl)
  | watchArm c => exact State.onRequest_strapNode h doWatchArm_strapNode
  | watchStop c => exact State.onRequest_strapNode h (withoutParams_strapNode fun _ => rfl)
  | snapRead c => exact State.onRequest_strapNode h doSnapRead_strapNode
  | snapAck c => exact State.onRequest_strapNode h (withoutParams_strapNode State.acknowledge_strapNode)
  | scanConfig c => exact State.onRequest_strapNode h doScanConfig_strapNode
  | scanStats c => exact State.onRequest_strapNode h doScanStats_strapNode
  | regionSet c => exact State.onRequest_strapNode h doRegionSet_strapNode
  | regionList c => exact State.onRequest_strapNode h (withoutParams_strapNode fun _ => rfl)
  | logRead c => exact State.onRequest_strapNode h (withoutParams_strapNode fun _ => rfl)
  | alertClear c => exact State.onRequest_strapNode h doAlertClear_strapNode
  | alertEnable c => exact State.onRequest_strapNode h doAlertEnable_strapNode
  | timeBaseTick => cases h; exact State.ite_strapNode _ s.takeExpiries_strapNode
  | lrxReturnsToMark => cases h; rfl
  | frameCharacterTaken c => exact execFrameCharacterTaken_strapNode h
  | turnViolationAtFinalByte c => cases h; exact State.ite_strapNode _ s.discardFrame_strapNode

end Sys2Proof.Machine
end

section
/-! PROBE, IDENTIFY and STATUS (R171, R172, R203 to R205): the data they answer with, and what their taking leaves. -/

namespace Sys2Proof.Machine

/-- A broadcast of any request but RELEASE ALL and LEVEL is ignored (R71, R157). -/
theorem exec_broadcastRequest_of_ignored {s : State} {c : RxChar} {code : Byte} {params : List Byte}
    (hrelease : code ≠ 0x21) (hlevel : code ≠ 0x04) (h : s.finalByte c = some (.broadcast (code :: params))) :
    exec (.broadcastRequest c) s = .next s.endFrame.endTransfer := by
  rw [exec_broadcastRequest h, State.actBroadcast_of_other]
  · exact fun heq => hrelease (List.head_eq_of_cons_eq heq)
  · exact fun _ _ heq => hlevel (List.head_eq_of_cons_eq heq)

/-! ## PROBE (R171, R205) -/

theorem doProbe_of_short {params : List Byte} (h : params.length ≤ 62) (u : State) :
    doProbe params u = u.answer .ok params := if_pos h

theorem doProbe_of_long {params : List Byte} (h : 62 < params.length) (u : State) :
    doProbe params u = u.answer .format [] := if_neg (Nat.not_le.2 h)

/-- Outside AWAIT_CONTINUE no transfer ends, and the taking reaches the receiver, the exchange and the lease alone (R155). -/
theorem State.takeRequest_of_not_await {s : State} (h : s.exch.state ≠ .awaitContinue) (code : Byte) :
    ∃ e l, s.takeRequest code = { s with rx := { s.rx with state := .hunt }, exch := e, lease := l } := by
  have hend : s.endFrame.endTransfer = s.endFrame := by
    refine State.endTransfer_of_not_await ?_
    rw [State.endFrame_eq]
    dsimp only
    split
    · nofun
    · exact h
  rw [State.takeRequest, hend, State.endFrame_eq]
  exact ⟨_, _, rfl⟩

/-- Settles O33: PROBE by the number of its parameters, what it leaves, and its broadcast among those ignored. -/
theorem probeEchoes : Obligations.ProbeEchoes := by
  refine fun s c params => ⟨fun hreq => ⟨fun hshort => ⟨?_, by omega⟩, fun hlong => ?_, fun hstate t ht => ?_⟩,
    exec_broadcastRequest_of_ignored (by decide) (by decide)⟩
  · exact State.onRequest_replies rfl hreq (doProbe_of_short hshort _) rfl rfl
  · exact State.onRequest_replies rfl hreq (doProbe_of_long hlong _) rfl rfl
  · obtain ⟨e, l, htaken⟩ := State.takeRequest_of_not_await hstate 0x01
    obtain rfl : doProbe params (s.takeRequest 0x01) = t :=
      Host.Outcome.next.inj ((s.onRequest_requests c 0x01 params doProbe hreq).symm.trans ht)
    rw [htaken]
    rcases Nat.lt_or_ge 62 params.length with hlong | hshort
    · rw [doProbe_of_long hlong]; rfl
    · rw [doProbe_of_short hshort]; rfl

/-! ## IDENTIFY (R204) -/

theorem identifyData_eq (node : BitVec 4) : identifyData node =
    [0x0A, 0x52, 0x01, BitVec.ofNat 8 node.toNat, 8, 32, 32, 64, 0x01, 0x00, 16] := by
  rw [BitVec.ofNat_toNat]
  rfl

/-- Settles O34: its data and its FORMAT, its broadcast among those ignored, and the straps sampled at one command alone. -/
theorem identifyReports : Obligations.IdentifyReports := by
  refine fun s c => ⟨fun hreq => ?_, fun params hparams hreq => withoutParams_format rfl hparams hreq,
    fun params => exec_broadcastRequest_of_ignored (by decide) (by decide), fun i t hi => exec_strapNode hi⟩
  rw [← identifyData_eq, ← s.takeRequest_strapNode 0x02]
  exact withoutParams_replies (i := .identify c) (data := fun u => identifyData u.strapNode) rfl hreq

/-! ## STATUS (R172, R194, R203) -/

/-- The fields in the layout of R194, but for the lease remaining. -/
theorem State.statusData_eq (s : State) : s.statusData =
    codeIn levels s.lease.level ++ field 2 s.lease.units
      ++ field 1 s.ctlrun.toNat ++ field 1 s.latched.maskValue ++ field 1 s.enabled.maskValue
      ++ field 1 s.forces.length ++ field 1 s.ops.length ++ codeIn modes s.watch.mode
      ++ field 1 s.watch.items.length ++ field 2 s.watch.elements.length ++ field 2 s.watch.generation.toNat
      ++ codeIn bankStates s.bankA.state ++ codeIn bankStates s.bankB.state ++ field 1 s.missed
      ++ codeIn supStates s.sup.state ++ field 2 s.sup.seq.toNat ++ field 1 s.guardLog.records.length
      ++ field 1 s.guardLog.dropped ++ field 1 s.exch.faults := by
  rw [field_one_bool, field_one_mask, field_one_mask, field_two, field_two]
  simp only [State.statusData, codeIn_levels, codeIn_modes, codeIn_bankStates, codeIn_supStates, field_one, field_two_ofNat,
    List.append_assoc, List.cons_append, List.nil_append]

theorem State.takeRequest_faults (s : State) (code : Byte) : (s.takeRequest code).exch.faults = s.exch.faults := by
  have hframe : s.endFrame.exch.faults = s.exch.faults := by rw [State.endFrame_eq]
  have htransfer : s.endFrame.endTransfer.exch.faults = s.endFrame.exch.faults := by
    unfold State.endTransfer
    split
    · rw [State.endExchange_eq]
    · rfl
  exact htransfer.trans hframe

/-- A renewed lease has its whole granted duration left (R66, R73). -/
theorem Lease.units_renew {l : Lease} (h : l.level ≠ .view) : l.renew.units = l.granted.getD 0 := by
  simp only [Lease.renew, if_neg h, Lease.units, Config.leaseUnit]
  omega

theorem State.endFrameAndTransfer_granted (s : State) : s.endFrame.endTransfer.lease.granted = s.lease.granted := by
  have hframe : s.endFrame.lease.granted = s.lease.granted := by
    rw [State.endFrame_eq]
    dsimp only
    split <;> rfl
  have htransfer : s.endFrame.endTransfer.lease.granted = s.endFrame.lease.granted := by
    unfold State.endTransfer
    split
    · rw [State.endExchange_eq]; rfl
    · rfl
  exact htransfer.trans hframe

/-- At the taking the lease remaining is the granted duration, and 0 at VIEW (R66, R73). -/
theorem State.takeRequest_units {s : State} (h : s.leaseOk = true) (code : Byte) :
    (s.takeRequest code).lease.units = if s.lease.level = .view then 0 else s.lease.granted.getD 0 := by
  split
  · rename_i hview
    obtain ⟨hsound, -⟩ := (State.leaseOk_iff _).1 ((s.takeRequest_keepsSession code).lease h)
    obtain ⟨hlease, -⟩ := hsound.view ((s.takeRequest_level code).trans hview)
    rw [hlease]
    rfl
  · rename_i hview
    have hlevel : s.endFrame.endTransfer.lease.level = s.lease.level :=
      s.endFrame.endTransfer_leaseLevel.trans s.endFrame_leaseLevel
    calc (s.takeRequest code).lease.units
      _ = s.endFrame.endTransfer.lease.renew.units := rfl
      _ = s.endFrame.endTransfer.lease.granted.getD 0 := Lease.units_renew (hlevel ▸ hview)
      _ = s.lease.granted.getD 0 := by rw [s.endFrameAndTransfer_granted]

/-- The STATUS data at the taking: all but the lease remaining and the banks are the values before it. -/
theorem State.statusData_takeRequest {s : State} (h : s.leaseOk = true) (code : Byte) :
    (s.takeRequest code).statusData =
      codeIn levels s.lease.level ++ field 2 (if s.lease.level = .view then 0 else s.lease.granted.getD 0)
        ++ field 1 s.ctlrun.toNat ++ field 1 s.latched.maskValue ++ field 1 s.enabled.maskValue
        ++ field 1 s.forces.length ++ field 1 s.ops.length ++ codeIn modes s.watch.mode
        ++ field 1 s.watch.items.length ++ field 2 s.watch.elements.length ++ field 2 s.watch.generation.toNat
        ++ codeIn bankStates (s.takeRequest code).bankA.state ++ codeIn bankStates (s.takeRequest code).bankB.state
        ++ field 1 s.missed ++ codeIn supStates s.sup.state ++ field 2 s.sup.seq.toNat
        ++ field 1 s.guardLog.records.length ++ field 1 s.guardLog.dropped ++ field 1 s.exch.faults := by
  rw [State.statusData_eq, State.takeRequest_units h, State.takeRequest_faults]
  simp only [State.takeRequest_level, State.takeRequest_ctlrun, State.takeRequest_latched, State.takeRequest_enabled,
    State.takeRequest_forces, State.takeRequest_ops, State.takeRequest_watch, State.takeRequest_missed,
    State.takeRequest_sup, State.takeRequest_guardLog]

/-- The bank that was SENDING is under transfer, which the taking ends (R120, R123, R155). -/
theorem State.takeRequest_not_sending {s : State} (hlink : s.LinkOk) (hbanks : s.banksOk = true) {c : RxChar}
    {payload : List Byte} (hreq : s.Requests c payload) (code : Byte) (i : BankId) :
    ((s.takeRequest code).bank i).state ≠ .sending := by
  obtain ⟨-, -, htransfer, -⟩ := s.banksOk_iff.1 hbanks
  obtain ⟨hok, hreceiver, -⟩ := hlink
  have hends : (s.takeRequest code).bank i =
      if s.exch.bank = some i ∧ (s.bank i).state = .sending then { s.bank i with state := .ready } else s.bank i := by
    have htaken : (s.takeRequest code).bank i = s.endFrame.endTransfer.bank i := by cases i <;> rfl
    rw [htaken, State.endFrameAndTransfer_eq hok (hreq.not_holdsTurn hreceiver)]
    cases i <;> rfl
  rw [hends]
  split
  · nofun
  · rename_i hidle
    exact fun hsending => hidle ⟨(htransfer i).1 hsending, hsending⟩

/-- Settles O36: its data at the taking, the transfer the taking has ended, and its FORMAT. -/
theorem statusReported : Obligations.StatusReported := by
  rintro s c hlease u rfl
  refine ⟨fun hreq => ?_, fun hreq hlink hbanks => ?_, fun params hparams hreq => withoutParams_format rfl hparams hreq⟩
  · rw [← State.statusData_takeRequest hlease]
    exact withoutParams_replies (i := .status c) (data := State.statusData) rfl hreq
  · have hends := State.takeRequest_not_sending hlink hbanks hreq 0x03
    exact ⟨hends .a, hends .b⟩

end Sys2Proof.Machine
end

section
/-! One step: the front command is carried out, some next state is answered, and memory keeps its canonical form. -/

namespace Sys2Proof.Machine

/-! ## The step -/

/-- An empty queue idles (log entry 6). -/
theorem step_of_pending_nil {s : State} (hp : s.pending = []) : step s = .next s := by
  rw [step, hp]

/-- The front command is carried out on the queue's rest (log entry 6). -/
theorem step_of_pending_cons {s : State} {i : Instr} {rest : List Instr} (hp : s.pending = i :: rest) :
    step s = exec i { s with pending := rest } := by
  rw [step, hp]

/-- Settles O1: the two cases of the queue. -/
theorem stepRunsFrontCommand : Obligations.StepRunsFrontCommand :=
  fun _ _ _ => ⟨step_of_pending_cons rfl, step_of_pending_nil rfl⟩

/-! ## Every command answers a next state -/

theorem State.onRequest_answers (s : State) (c : RxChar) (code : Byte) (carryOut : List Byte → State → State) :
    ∃ t, s.onRequest c code carryOut = .next t := by
  unfold State.onRequest
  split <;> exact ⟨_, rfl⟩

/-- A command whose event cannot occur answers the state as it is, so that none is left without a next state (log
entry 7). -/
theorem exec_answers (i : Instr) (s : State) : ∃ t, exec i s = .next t := by
  cases i with
  | probe c | identify c | status c | level c | sessionClear c | peek c | poke c | sync c | force c | releaseAll c
  | forceList c | watchDefine c | watchAppend c | watchList c | watchArm c | watchStop c | snapRead c | snapAck c
  | scanConfig c | scanStats c | regionSet c | regionList c | logRead c | alertClear c | alertEnable c =>
    exact s.onRequest_answers c _ _
  -- these look at what the Memory Port, the receiver or the exchange stands at
  | controllerReadDataReturn | reservationExpiry | controllerWriteReachesMemory | captureReadReturn | fillReadReturn
  | frameCharacterTaken c | overlongLength c | interByteTimeout | frameSent =>
    dsimp only [exec, execControllerReadDataReturn, execReservationExpiry, execControllerWriteReachesMemory,
      execCaptureReadReturn, execFillReadReturn, execFrameCharacterTaken, execOverlongLength, execInterByteTimeout,
      execFrameSent]
    split <;> exact ⟨_, rfl⟩
  -- these look at what the character ends as a final byte
  | unknownRequest c | broadcastRequest c | continueFrame c | abortFrame c =>
    dsimp only [exec, execUnknownRequest, execBroadcastRequest, execContinueFrame, execAbortFrame]
    split <;> exact ⟨_, rfl⟩
  -- these look at the grant and then at the kind of the head of the queue
  | readOperationDataReturn | writeOperationReachesMemory | modifyReadComplete | modifyWriteReachesMemory =>
    dsimp only [exec, execReadOperationDataReturn, execWriteOperationReachesMemory, execModifyReadComplete,
      execModifyWriteReachesMemory]
    split
    · split <;> exact ⟨_, rfl⟩
    · exact ⟨_, rfl⟩
  | _ => exact ⟨_, rfl⟩

/-! ## Memory -/

/-- Memory is left as it is or takes one word write, and a word write keeps the canonical form. -/
theorem exec_mem_wf {i : Instr} {s t : State} (he : exec i s = .next t) (hwf : s.mem.wf) : t.mem.wf := by
  by_cases hsame : t.mem = s.mem
  · rwa [hsame]
  · obtain ⟨-, -, a, d, lanes, -, hwrite⟩ := exec_mem_changed he hsame
    rw [hwrite]
    exact s.mem.writeWord_wf a d lanes hwf

/-- Settles O53: an empty queue idles, and the front command answers a next state and keeps memory's form. -/
theorem memoryFormKept : Obligations.MemoryFormKept := by
  intro s
  cases hp : s.pending with
  | nil =>
    rw [step_of_pending_nil hp]
    refine ⟨⟨s, rfl⟩, fun hwf t hstep => ?_⟩
    cases hstep
    exact hwf
  | cons i rest =>
    rw [step_of_pending_cons hp]
    exact ⟨exec_answers i _, fun hwf t hstep => exec_mem_wf hstep hwf⟩

end Sys2Proof.Machine
end
